-- ==== Sys2Proof/Word.lean ====
section
/-! DEFINITION. The words of the EG-460: a byte of a frame, and the 16- and 32-bit counts that wrap
(tick numbers, generations; lane time, accumulators, counts). -/

namespace Sys2Proof

/-- One byte of a frame or of a line. -/
abbrev Byte := BitVec 8
/-- A 16-bit wrapping number: tick number, bank generation, CRC-16. -/
abbrev Word16 := BitVec 16
/-- A 32-bit wrapping number: lane time, accumulator, count, certificate number, CRC-32. -/
abbrev Word32 := BitVec 32

end Sys2Proof
end

