-- ==== Sys2Proof/Syntax.lean ====
section
/-! DEFINITION. The commands of the EG-460: one constructor per row of spec/opcode_table.json.
Rows that the Frame Router takes carry no operands: their content is the oldest frame of a receive
FIFO (R12, R18). -/

namespace Sys2Proof

/-- The two ports (01, section 1.1). -/
inductive Port where
  | head | station
deriving DecidableEq, Repr

/-- The two sides (00, section 5.4). -/
inductive Side where
  | left | right
deriving DecidableEq, Repr

/-- The two cadences (02, section 2.1). -/
inductive Cadence where
  | a | b
deriving DecidableEq, Repr

/-- The sixteen quantities, in the order of the quantity table (02, section 2.2). -/
inductive Quantity where
  | driveSpeedL | driveSpeedR | followSpeedL | followSpeedR | followPulsesL | followPulsesR
  | brakeForceL | brakeForceR | pedalForce | wheelLoadL | wheelLoadR
  | axlePresentL | axlePresentR | plateOccupied | plateTravel | plateLateral
deriving DecidableEq, Repr

/-- Where the Lane Controller's clearance test (R84) stands among the consumers of one tick close:
R157 lets either be taken first. -/
inductive CloseOrder where
  | clearanceLast | clearanceFirst
deriving DecidableEq, Repr

/-- The commands: one per row of the table of operations and events. -/
inductive Instr where
  | powerOnReset
  /-- The end of a reception at a port: the line bytes that followed the start delimiter, up to and
  with the delimiter that ended the reception; with none, the line went idle (R1, R183). -/
  | reception (p : Port) (line : List Byte)
  | sendBegin (p : Port)
  | stationSendCompletion
  | headSendCompletion
  | misdirectedFrame (p : Port)
  | forwardedFrame (p : Port)
  | sampleFrame
  | statusFrame
  | stationStart
  | stationStop
  | unknownRequest
  | tableWrite
  | tableRead
  | bankSwitchApply
  | bankSwitchCancel
  | bankStatus
  | goIdle
  | goOff
  | goManual
  | goEntry
  | goTest
  | goEntryToTest
  | goPause
  | goResume
  | vehicleOpen
  | vehicleCancel
  | laneReset
  | cadenceSet
  | syncRequestZero
  | syncRequestStreamOn
  | syncRequestStreamOff
  | syncRequestHeadRestart
  | countersLatch
  | statusRead
  | logRead
  | certAck
  | certNumberSet
  | tickIssue (c : Cadence) (o : CloseOrder)
  | quantityStale (q : Quantity) (o : CloseOrder)
  | lock (sd : Side) (o : CloseOrder)
  | release (sd : Side) (o : CloseOrder)
  | revolutionCarry (sd : Side) (o : CloseOrder)
  | presenceCountReached (o : CloseOrder)
  | guideBars (o : CloseOrder)
  | laneMillisecond
  | stepTimeout
  | spinUpWindowExpiry (sd : Side)
  | heldStartPermitted (sd : Side)
  | historyEntryAged (sd : Side)
  | certResendDue
  | certSend
  | pendingGuideOffer
  | startDelimiterSeen (p : Port)
  | referenceStep
deriving DecidableEq, Repr

end Sys2Proof
end

