-- ==== Sys2Proof/Decode.lean ====
section
/-! DEFINITION. The decoder of the table's words: no row of spec/opcode_table.json gives bits, so no word
spells a command. The bytes of frames and lines are decoded in Machine/Frames.lean. -/

namespace Sys2Proof

/-- The command a word of the table spells: none does. -/
def decodeTableWord (_nbits _w : Nat) : Option Instr := none

end Sys2Proof
end

