-- ==== Sys2Proof/Config.lean ====
section
/-! DEFINITION. What the manual leaves open as a value: the free values, constants with no body. -/

namespace Sys2Proof

/-- The three bytes that carry a value of R185's three-byte signed format when the value does not
fit them (a crossing speed v of R152 reaches 2 × 10⁹). The spec states no result there: a free
value (DESIGN CHOICE, log entry 19; safe). -/
opaque Config.wideFigure : Int → BitVec 24

end Sys2Proof
end

