-- ==== Sys2Proof/Machine/State.lean ====
section
/-! DEFINITION. The state of the EG-460 as plain data, every piece the spec names, and its value after
power-on reset (R11, R24, R46, R49, R65, R87, R106, R125, R147, R159, R163, R171 to R175, R179). -/

namespace Sys2Proof.Machine

/-- One thing for each side, L and R. -/
structure Pair (α : Type) where
  left : α
  right : α
deriving DecidableEq, Repr

/-- The side's half of a pair. -/
def Pair.get {α : Type} (p : Pair α) : Side → α
  | .left => p.left
  | .right => p.right

/-- The pair with one side's half replaced. -/
def Pair.set {α : Type} (p : Pair α) (sd : Side) (x : α) : Pair α :=
  match sd with
  | .left => { p with left := x }
  | .right => { p with right := x }

/-! ### Ports (01) -/

/-- A frame as its bytes stand on the line after the escapes are undone (R183). -/
structure Frame where
  dst : Byte
  src : Byte
  kind : Byte
  payload : List Byte
  check : Word16
deriving DecidableEq, Repr

/-- The receiver of a port (R1): idle, taking a frame, or ignoring the line up to the next start delimiter. -/
inductive RxState where
  | idle | receiving | ignoring
deriving DecidableEq, Repr

/-- The transmitter of a port (R6, R8): idle; holding a taken frame whose send waits for the free
line; or sending it, with the bytes on the line (R183). -/
inductive TxState where
  | idle
  | taken (f : Frame)
  | sending (f : Frame) (line : List Byte)
deriving DecidableEq, Repr

/-- What both ports have (R4 to R6, R11). -/
structure PortState where
  rx : RxState
  fifo : List Frame
  queue : List Frame
  tx : TxState
deriving DecidableEq, Repr

/-- A STOP waiting in an urgent place, with its side (R7). -/
structure WaitingStop where
  side : Side
  frame : Frame
deriving DecidableEq, Repr

/-! ### Cadences (02, section 2.1) -/

/-- The latest tick issued, while its tick close has not come: skipped (R26), made void (R43). -/
structure OpenTick where
  skipped : Bool
  void : Bool
deriving DecidableEq, Repr

/-- One cadence. `carryDue` is the model's own: a carry whose tick issue has not been taken yet. -/
structure CadenceState where
  acc : Word32
  inc : Nat
  rate : Nat
  running : Bool
  tick : Word16
  openTick : Option OpenTick
  carryDue : Bool
deriving DecidableEq, Repr

/-! ### Conditioner (02, section 2.2) -/

/-- The condition of a delivery record (R38). -/
inductive Condition where
  | fresh | excused | held | void
deriving DecidableEq, Repr

/-- One delivery record of a tick close's set (R38). -/
structure Delivery where
  value : Option Int
  conv : Option Int
  clamp : Bool
  cond : Condition
  stale : Bool
deriving DecidableEq, Repr

/-- The last set of a cadence (R38, R39): the closed tick's number, and for each quantity in table
order its record, or `none` when it is not in the set. -/
structure TickSet where
  tick : Option Word16
  records : List (Option Delivery)
deriving DecidableEq, Repr

/-- The batch under construction (R41): values with their clamp flags. -/
structure Batch where
  firstTick : Word16
  values : List (Int × Bool)
deriving DecidableEq, Repr

/-- What the Conditioner keeps for one quantity (02, section 2.2); the per-entry parts are those of
the one enabled entry that names it (log entry 8). -/
structure QuantityState where
  lastRaw : Option Int
  lastConv : Option Int
  lastCond : Option Int
  tare : Int
  missing : Nat
  stale : Bool
  pendingRaw : Option Int
  firstSample : Bool
  excused : Bool
  phase : Nat
  batch : Batch
deriving DecidableEq, Repr

/-! ### Table banks (03) -/

/-- The roles of the Head Directory (11, section 11.5). -/
inductive Role where
  | driveCabinet | brakeHeadL | brakeHeadR | scaleHead | plateHead | pedalHead | display | printer | station
deriving DecidableEq, Repr

/-- The dispositions of a Channel Map entry (02, section 2.5). -/
inductive Disposition where
  | off | raw | converted
deriving DecidableEq, Repr

/-- The step kinds (05, section 5.4). -/
inductive StepKind where
  | axleIn | weigh | spin | service | hold | park | stop | axleOut | finish
deriving DecidableEq, Repr

/-- The timeout actions (R98 to R100). -/
inductive TimeoutAction where
  | rep | skip | abort
deriving DecidableEq, Repr

/-- A Head Directory entry. -/
structure HeadEntry where
  node : Nat
  role : Role
  enabled : Bool
deriving DecidableEq, Repr

/-- A Channel Map entry. -/
structure MapEntry where
  node : Nat
  channel : Nat
  quantity : Quantity
  cadence : Cadence
  calibration : Nat
  tareable : Bool
  disposition : Disposition
  decimation : Nat
  holdLimit : Nat
deriving DecidableEq, Repr

/-- A Calibration entry: range and breakpoints (raw, value). -/
structure CalEntry where
  rangeMin : Int
  rangeMax : Int
  points : List (Int × Int)
deriving DecidableEq, Repr

/-- A Class Limits entry (R52). -/
structure ClassLimits where
  serviceMin : Int
  parkMin : Int
  imbalanceMax : Int
  ovalityMax : Int
  sideSlipMax : Int
  lockSlip : Int
  lockConfirm : Nat
  engageForce : Int
  releaseForce : Int
  releaseConfirm : Nat
  imbalanceFloor : Int
  ovalityFloor : Int
  ovalityWindows : Nat
  wheelCircumference : Nat
  plan : Nat
deriving DecidableEq, Repr

/-- A Test Plan entry: one step of one plan. -/
structure PlanStep where
  kind : StepKind
  message : Byte
  timeout : Nat
  action : TimeoutAction
  repeatLimit : Nat
  parkOnly : Bool
deriving DecidableEq, Repr

/-- The Lane Settings record; the three fields that may be unset are optional (R49, R52). -/
structure LaneSettings where
  followerCircumference : Option Nat
  pulsesPerRev : Option Nat
  standstillSpeed : Int
  minDriveSpeed : Int
  spinUpWindow : Nat
  spinUpFraction : Int
  stabilitySpread : Int
  settleCount : Nat
  barInterval : Nat
  plateMinTravel : Int
  speedLow : Int
  speedHigh : Int
  rezeroPeriod : Nat
  headStaleEnable : Bool
  driveFaultEnable : Bool
  batchLevel : Option Nat
deriving DecidableEq, Repr

/-- One complete copy of the tables (03, section 3.1); `none` is an empty entry. -/
structure Bank where
  directory : List (Option HeadEntry)
  channels : List (Option MapEntry)
  calibration : List (Option CalEntry)
  classes : List (Option ClassLimits)
  plans : List (Option PlanStep)
  startRules : List (Option Nat)
  settings : Option LaneSettings
deriving DecidableEq, Repr

/-- The tables, by their codes of chapter 11. -/
inductive Table where
  | headDirectory | channelMap | calibration | classLimits | testPlan | startRules | laneSettings
deriving DecidableEq, Repr

/-- The named checks of R54, in its order. -/
inductive CheckName where
  | duplicateNode | driveCabinetCount | displayCount | duplicateKey | duplicateQuantity | badCalibration
  | emptyClass | forceOrder | planEmpty | planGap | planEnd | finishForm | settingUnset | settingOrder
deriving DecidableEq, Repr

/-- A failed check with the table and entry it reports (R54, R55). -/
structure Failure where
  check : CheckName
  table : Table
  entry : Option Nat
deriving DecidableEq, Repr

/-- The last validation result (R63). -/
inductive ValidationResult where
  | none | passed | failed (f : Failure)
deriving DecidableEq, Repr

/-- The Table Banks' own registers (R49). -/
structure BankControl where
  valid : Bool
  generation : Word16
  switchPending : Bool
  modified : Bool
  last : ValidationResult
deriving DecidableEq, Repr

/-! ### Lane Controller (04) -/

/-- The nine lane states. -/
inductive LaneState where
  | off | idle | manual | entry | testing | pausing | paused | halted | exit
deriving DecidableEq, Repr

/-- The pause-cause set (R76): a set of five members. -/
structure PauseCauses where
  station : Bool
  estop : Bool
  headStale : Bool
  driveFault : Bool
  certFull : Bool
deriving DecidableEq, Repr

/-- The auto-test flag (R72). -/
inductive AutoTest where
  | clear | armed | due
deriving DecidableEq, Repr

/-- The Lane Controller's state (04, its state table); the emergency-stop and overtemperature flags
stand with the rollers, where they are written. -/
structure LaneControl where
  state : LaneState
  remembered : Option LaneState
  causes : PauseCauses
  autoTest : AutoTest
  exitWait : Bool
  rezeroCount : Nat
deriving DecidableEq, Repr

/-! ### Step Engine (05) -/

/-- The step phases. -/
inductive StepPhase where
  | none | waiting | running | suspendedRestart | suspendedContinue
deriving DecidableEq, Repr

/-- What a step holds for a side (R92, R94). -/
inductive SideMark where
  | clear | requested | waitingStandstill | up | measuring | notRun
deriving DecidableEq, Repr

/-- How a step is begun (R88). -/
inductive BeginOccasion where
  | advance | rep | restart | rerun
deriving DecidableEq, Repr

/-- A GUIDE message (R102): message code, axle index, and the two numeric fields when present. -/
structure GuideMessage where
  message : Byte
  axle : Nat
  fields : Option (Nat × Nat)
deriving DecidableEq, Repr

/-- The Step Engine's state (05, section 5.2). `waitOccasion` and `waitTaken` are what a WAITING step
is to be begun with (R101) and whether item 1 of R88 was taken for it (log entry 21). -/
structure EngineState where
  plan : Option Nat
  step : Option Nat
  axle : Nat
  phase : StepPhase
  attempt : Nat
  elapsed : Nat
  presence : Nat
  barPhase : Nat
  marks : Pair SideMark
  pendingGuide : Option GuideMessage
  waitOccasion : BeginOccasion
  waitTaken : Bool
deriving DecidableEq, Repr

/-! ### Roller Supervisor (06) -/

/-- The five roller states. -/
inductive RollerState where
  | stopped | held | spinningUp | running | coasting
deriving DecidableEq, Repr

/-- Where a START comes from, and the supervisor's own notices (R108, R119). -/
inductive Origin where
  | station | sequence | supervisor
deriving DecidableEq, Repr

/-- One START sent: its completion time and its aged mark (R107). -/
structure HistoryEntry where
  time : Word32
  aged : Bool
deriving DecidableEq, Repr

/-- A START waiting in the held-start slot (R108). -/
structure HeldStart where
  origin : Origin
  since : Word32
deriving DecidableEq, Repr

/-- Lock detection while it is on (R117). -/
structure Watch where
  engaged : Bool
  count : Nat
deriving DecidableEq, Repr

/-- One roller side (06, section 6.1). `testDue` is the model's own: the held START is still to be
tested at this lane millisecond (R110). -/
structure RollerSide where
  state : RollerState
  outstanding : Bool
  sendTime : Option Word32
  history : List HistoryEntry
  held : Option HeldStart
  testDue : Bool
  slip : Int
  watch : Option Watch
  acc : Word32
  increment : Nat
  window : Nat
  contactor : Bool
  overtemp : Bool
deriving DecidableEq, Repr

/-- Both sides and the emergency-stop flag, held once. -/
structure Rollers where
  sides : Pair RollerSide
  estop : Bool
deriving DecidableEq, Repr

/-! ### Brake Evaluator (07) -/

/-- What the Evaluator is measuring. -/
inductive Activity where
  | none | settling | force | hold
deriving DecidableEq, Repr

/-- Where a side's force measurement stands. -/
inductive EvalPhase where
  | idle | waitingEngage | engaged | ended
deriving DecidableEq, Repr

/-- How a side ended. -/
inductive Ending where
  | none | locked | released | windows | stopped | timedOut
deriving DecidableEq, Repr

/-- One side of the Evaluator (07, section 7.1). -/
structure EvalSide where
  phase : EvalPhase
  peak : Option Int
  pedal : Option Int
  release : Nat
  ending : Ending
  stale : Bool
  extremes : Option (Int × Int)
  windows : Nat
  ovality : Option Int
deriving DecidableEq, Repr

/-- The Evaluator's state; a load window holds values with their stale marks, oldest first. -/
structure Evaluator where
  activity : Activity
  loads : Pair (List (Int × Bool))
  sides : Pair EvalSide
  imbalance : Option Int
deriving DecidableEq, Repr

/-! ### Plate Unit (08) -/

/-- Whether crossings are detected, and where the plate stands. -/
inductive Detection where
  | off | waitClear | clear | opened
deriving DecidableEq, Repr

/-- The values taken at an occupied close. -/
structure PlatePoint where
  time : Word32
  lateral : Option Int
  travel : Option Int
deriving DecidableEq, Repr

/-- The Plate Unit's state (08, section 8.1). -/
structure PlateUnit where
  detection : Detection
  start : Option PlatePoint
  last : Option PlatePoint
  reversed : Bool
  stale : Bool
  axleCount : Nat
  crossing : Nat
deriving DecidableEq, Repr

/-- The outcomes of a crossing (R152). -/
inductive PlateOutcome where
  | valid | invalidData | invalidShort | invalidSpeed | reverse
deriving DecidableEq, Repr

/-! ### Vehicle Record (09, section 9.1) -/

/-- A plate result (R154). -/
structure PlateResult where
  outcome : PlateOutcome
  value : Option Int
  clamped : Bool
  stale : Bool
deriving DecidableEq, Repr

/-- A wheel load with its stale mark (R127). -/
structure Load where
  value : Int
  stale : Bool
deriving DecidableEq, Repr

/-- One side's service result (R135). -/
structure ServiceSide where
  peak : Option Int
  ending : Ending
  pedal : Option Int
  stale : Bool
deriving DecidableEq, Repr

/-- One side's hold result (R138). -/
structure HoldSide where
  ovality : Option Int
  ending : Ending
  windows : Nat
  stale : Bool
deriving DecidableEq, Repr

/-- One side's park result (R135). -/
structure ParkSide where
  peak : Option Int
  ending : Ending
  stale : Bool
deriving DecidableEq, Repr

/-- One axle entry with its five optional parts (R160); the brake parts per side. -/
structure AxleEntry where
  plate : Option PlateResult
  loads : Option (Pair Load)
  service : Pair (Option ServiceSide)
  imbalance : Option Int
  hold : Pair (Option HoldSide)
  park : Pair (Option ParkSide)
deriving DecidableEq, Repr

/-- A verdict of an item; `notApplicable` has none (R143, R144, codes of R184). -/
inductive Verdict where
  | notApplicable | pass | fail | notEvaluated
deriving DecidableEq, Repr

/-- The overall verdict (R145). -/
inductive Overall where
  | pass | fail | incomplete
deriving DecidableEq, Repr

/-- The values one axle was judged on, and their verdicts (R140). -/
structure AxleResults where
  imbalance : Option Int
  imbalanceVerdict : Verdict
  ovality : Pair (Option Int)
  ovalityVerdict : Pair Verdict
  plate : Option PlateResult
  sideSlipVerdict : Verdict
deriving DecidableEq, Repr

/-- The vehicle results (R140 to R145). -/
structure VehicleResults where
  service : Option Int
  serviceVerdict : Verdict
  lockCredit : Bool
  park : Option Int
  parkVerdict : Verdict
  axles : List AxleResults
  overall : Overall
deriving DecidableEq, Repr

/-- The Vehicle Record (09, section 9.1); the park-axle set lists its axles in rising order. -/
structure VehicleRecord where
  ident : List Byte
  dateTime : Option (List Byte)
  cls : Nat
  n : Nat
  park : List Nat
  generation : Word16
  openTime : Word32
  aborted : Bool
  repeats : Nat
  extra : Nat
  axles : List AxleEntry
  results : Option VehicleResults
deriving DecidableEq, Repr

/-! ### Certificates (09, sections 9.2 and 9.3) -/

/-- A per-axle line of a certificate (R164). -/
structure AxleLine where
  axle : Nat
  parkAxle : Bool
  stale : Bool
  loads : Pair (Option Int)
  servicePeaks : Pair (Option Int)
  parkPeaks : Pair (Option Int)
  results : AxleResults
deriving DecidableEq, Repr

/-- A certificate (R164), with its check value (R165). -/
structure Certificate where
  number : Word32
  ident : List Byte
  dateTime : Option (List Byte)
  cls : Nat
  n : Nat
  lines : List AxleLine
  service : Option Int
  serviceVerdict : Verdict
  lockCredit : Bool
  park : Option Int
  parkVerdict : Verdict
  overall : Overall
  aborted : Bool
  repeats : Nat
  extra : Nat
  live : Word32
  hold : Word32
  generation : Word16
  check : Word32
deriving DecidableEq, Repr

/-- The certificate number, the queue (oldest first) and the delivery of its oldest (R163, R167). -/
structure CertState where
  number : Word32
  queue : List Certificate
  due : Bool
  sendCount : Nat
  lastSend : Option Word32
deriving DecidableEq, Repr

/-! ### Lane Clock, Counters and Sync Log (10) -/

/-- Lane time, the reference steps since the last millisecond, live and hold time (R172, R173).
`msDue` is the model's own: a lane millisecond that has come and has not been taken. -/
structure Clock where
  laneTime : Word32
  micro : Nat
  msDue : Bool
  live : Word32
  hold : Word32
deriving DecidableEq, Repr

/-- The nine counts of a port (R21). -/
structure PortCounts where
  framesIn : Word32
  framesOut : Word32
  framing : Word32
  length : Word32
  checkValue : Word32
  content : Word32
  rxOverrun : Word32
  txOverrun : Word32
  misdirected : Word32
deriving DecidableEq, Repr

/-- The counts of one quantity (R47). -/
structure QuantityCounts where
  clamps : Word32
  holds : Word32
  late : Word32
deriving DecidableEq, Repr

/-- Every count of R21, R47 and R174. -/
structure Counters where
  head : PortCounts
  station : PortCounts
  quantities : List QuantityCounts
  skippedA : Word32
  skippedB : Word32
  droppedBatches : Word32
  unmapped : Word32
  droppedBars : Word32
  droppedReplies : Word32
  reverse : Word32
  opened : Word32
  cancelled : Word32
  aborted : Word32
  certificates : Word32
deriving DecidableEq, Repr

/-- The codes of the Sync Log (R179, codes of chapter 11 and R185). -/
inductive SyncCode where
  | zero | streamOn | streamOff | headRestart | tare
deriving DecidableEq, Repr

/-- The sources of a sync action (R177). -/
inductive SyncSource where
  | station | sequence | periodic
deriving DecidableEq, Repr

/-- A Sync Log entry (R179). -/
structure SyncEntry where
  time : Word32
  code : SyncCode
  source : SyncSource
deriving DecidableEq, Repr

/-- The Sync Log and its overflow count; the half flag is `halfFlag` of the entries (R179). -/
structure SyncLog where
  entries : List SyncEntry
  overflow : Nat
deriving DecidableEq, Repr

/-! ### The whole -/

/-- The state of the part. `pending` is the queue of commands that wait, oldest first. -/
structure State where
  head : PortState
  station : PortState
  urgent : Option WaitingStop
  headPlace : Option WaitingStop
  cadA : CadenceState
  cadB : CadenceState
  quantities : List QuantityState
  setA : TickSet
  setB : TickSet
  working : Bank
  shadow : Bank
  banks : BankControl
  lane : LaneControl
  engine : EngineState
  rollers : Rollers
  eval : Evaluator
  plate : PlateUnit
  vehicle : Option VehicleRecord
  certs : CertState
  clock : Clock
  live : Counters
  latched : Counters
  latchTime : Option Word32
  syncLog : SyncLog
  pending : List Instr
deriving DecidableEq, Repr

/-- The spec gives the part no fault: it stops on nothing, so this type has no constructor (safe:
no step of the model answers one). -/
inductive Fault where
deriving DecidableEq, Repr

/-- Why a command has no meaning. Raised only by an arm of `exec` whose row has not been modelled;
there is none (safe). -/
inductive Refusal where
  /-- Raised by the dispatcher for a row without a meaning; safe. -/
  | notModelled (mnemonic : String)
deriving DecidableEq, Repr

/-! ### Values after power-on reset -/

/-- A port after power-on reset (R11). -/
def PortState.reset : PortState := { rx := .idle, fifo := [], queue := [], tx := .idle }

/-- A cadence after power-on reset with its rate and increment (R23, R24). -/
def CadenceState.reset (rate inc : Nat) : CadenceState :=
  { acc := 0, inc, rate, running := false, tick := 0, openTick := none, carryDue := false }

/-- An empty batch. -/
def Batch.empty : Batch := { firstTick := 0, values := [] }

/-- A quantity after power-on reset (R46). -/
def QuantityState.reset : QuantityState :=
  { lastRaw := none, lastConv := none, lastCond := none, tare := 0, missing := 0, stale := false,
    pendingRaw := none, firstSample := false, excused := false, phase := 0, batch := Batch.empty }

/-- No set received yet. -/
def TickSet.none : TickSet := { tick := Option.none, records := List.replicate 16 Option.none }

/-- Every entry of every table empty (R49). -/
def Bank.empty : Bank :=
  { directory := List.replicate 16 none, channels := List.replicate 64 none,
    calibration := List.replicate 32 none, classes := List.replicate 8 none,
    plans := List.replicate 192 none, startRules := List.replicate 4 none, settings := none }

/-- The power-on values of the shadow Lane Settings record (R49, R52). -/
def LaneSettings.powerOn : LaneSettings :=
  { followerCircumference := none, pulsesPerRev := none, standstillSpeed := 50, minDriveSpeed := 400,
    spinUpWindow := 3000, spinUpFraction := 900, stabilitySpread := 200, settleCount := 16,
    barInterval := 10, plateMinTravel := 600, speedLow := 280, speedHigh := 2220, rezeroPeriod := 0,
    headStaleEnable := true, driveFaultEnable := true, batchLevel := none }

/-- The empty pause-cause set. -/
def PauseCauses.empty : PauseCauses :=
  { station := false, estop := false, headStale := false, driveFault := false, certFull := false }

/-- The Step Engine after power-on reset (R87). -/
def EngineState.reset : EngineState :=
  { plan := none, step := none, axle := 0, phase := .none, attempt := 1, elapsed := 0, presence := 0,
    barPhase := 0, marks := { left := .clear, right := .clear }, pendingGuide := none,
    waitOccasion := .advance, waitTaken := false }

/-- A roller side after power-on reset (R106). -/
def RollerSide.reset : RollerSide :=
  { state := .stopped, outstanding := false, sendTime := none, history := [], held := none,
    testDue := false, slip := 0, watch := none, acc := 0, increment := 0, window := 0,
    contactor := false, overtemp := false }

/-- A side of the Evaluator after power-on reset (R125). -/
def EvalSide.reset : EvalSide :=
  { phase := .idle, peak := none, pedal := none, release := 0, ending := .none, stale := false,
    extremes := none, windows := 0, ovality := none }

/-- The Evaluator after power-on reset (R125). -/
def Evaluator.reset : Evaluator :=
  { activity := .none, loads := { left := [], right := [] },
    sides := { left := EvalSide.reset, right := EvalSide.reset }, imbalance := none }

/-- The Plate Unit after power-on reset (R147). -/
def PlateUnit.reset : PlateUnit :=
  { detection := .off, start := none, last := none, reversed := false, stale := false,
    axleCount := 0, crossing := 0 }

/-- An axle entry as VEHICLE_OPEN creates it: every optional part absent (R159). -/
def AxleEntry.empty : AxleEntry :=
  { plate := none, loads := none, service := { left := none, right := none }, imbalance := none,
    hold := { left := none, right := none }, park := { left := none, right := none } }

/-- Every count of a port 0 (R11, R21). -/
def PortCounts.zero : PortCounts :=
  { framesIn := 0, framesOut := 0, framing := 0, length := 0, checkValue := 0, content := 0,
    rxOverrun := 0, txOverrun := 0, misdirected := 0 }

/-- Every count 0 (R21, R47, R174). -/
def Counters.zero : Counters :=
  { head := PortCounts.zero, station := PortCounts.zero,
    quantities := List.replicate 16 { clamps := 0, holds := 0, late := 0 },
    skippedA := 0, skippedB := 0, droppedBatches := 0, unmapped := 0, droppedBars := 0,
    droppedReplies := 0, reverse := 0, opened := 0, cancelled := 0, aborted := 0, certificates := 0 }

/-- The part right after power-on reset, with no command waiting. -/
def State.reset : State :=
  { head := PortState.reset, station := PortState.reset, urgent := none, headPlace := none,
    cadA := CadenceState.reset 200 858993, cadB := CadenceState.reset 20 85899,
    quantities := List.replicate 16 QuantityState.reset, setA := TickSet.none, setB := TickSet.none,
    working := Bank.empty,
    shadow := { Bank.empty with settings := some LaneSettings.powerOn },
    banks := { valid := false, generation := 0, switchPending := false, modified := false, last := .none },
    lane := { state := .off, remembered := none, causes := PauseCauses.empty, autoTest := .clear,
              exitWait := false, rezeroCount := 0 },
    engine := EngineState.reset,
    rollers := { sides := { left := RollerSide.reset, right := RollerSide.reset }, estop := false },
    eval := Evaluator.reset, plate := PlateUnit.reset, vehicle := none,
    certs := { number := 0, queue := [], due := false, sendCount := 0, lastSend := none },
    clock := { laneTime := 0, micro := 0, msDue := false, live := 0, hold := 0 },
    live := Counters.zero, latched := Counters.zero, latchTime := none,
    syncLog := { entries := [], overflow := 0 }, pending := [] }

end Sys2Proof.Machine
end

