-- ==== Sys2Proof/Machine/Frames.lean ====
section
/-! DEFINITION. Bytes: numbers in their widths (high-order byte first, R183), the CRC-16 of frames (R3)
and the CRC-32 of certificates (R165), the escapes and delimiters of the line (R183), and the checks
of an arriving frame (R1 to R3). -/

namespace Sys2Proof.Machine

/-! ### Numbers as bytes -/

/-- One byte of a number. -/
def be8 (n : Nat) : List Byte := [BitVec.ofNat 8 n]
/-- Two bytes, high-order first. -/
def be16 (n : Nat) : List Byte := [BitVec.ofNat 8 (n / 256), BitVec.ofNat 8 n]
/-- Three bytes, high-order first. -/
def be24 (n : Nat) : List Byte := BitVec.ofNat 8 (n / 65536) :: be16 n
/-- Four bytes, high-order first. -/
def be32 (n : Nat) : List Byte := BitVec.ofNat 8 (n / 16777216) :: be24 n
/-- A 16-bit word's two bytes. -/
def word16 (w : Word16) : List Byte := be16 w.toNat
/-- A 32-bit word's four bytes. -/
def word32 (w : Word32) : List Byte := be32 w.toNat
/-- A signed number in two bytes, two's complement (R183). -/
def signed16 (x : Int) : List Byte := be16 (BitVec.ofInt 16 x).toNat
/-- A signed number in three bytes; one that they cannot hold is the free value of log entry 19. -/
def signed24 (x : Int) : List Byte :=
  be24 (if -8388608 ≤ x ∧ x ≤ 8388607 then (BitVec.ofInt 24 x).toNat else (Config.wideFigure x).toNat)
/-- A flag or mark: 0 for clear or no, 1 for set or yes (R185). -/
def flagByte (b : Bool) : List Byte := [if b then 1 else 0]
/-- A field that may be absent: a presence byte, then the field when present (R185). -/
def optional {α : Type} (enc : α → List Byte) : Option α → List Byte
  | none => [0]
  | some x => 1 :: enc x

/-- The number that bytes spell, high-order byte first. -/
def readNat (l : List Byte) : Nat := l.foldl (fun n b => 256 * n + b.toNat) 0
/-- The signed number that bytes spell in two's complement. -/
def readInt (l : List Byte) : Int :=
  if 2 * readNat l < 256 ^ l.length then (readNat l : Int) else (readNat l : Int) - (256 ^ l.length : Nat)

/-! ### Check values -/

/-- CRC-16: one bit of the division by 1021 hex, most significant bit first (R3). -/
def crc16Bit (c : Word16) : Word16 := if c.msb then (c <<< 1) ^^^ 0x1021 else c <<< 1
/-- CRC-16: one byte. -/
def crc16Byte (c : Word16) (b : Byte) : Word16 := crc16Bit^[8] (c ^^^ (b.setWidth 16 <<< 8))
/-- The CRC-16 of R3: register preset to FFFF hex, no inversion at the end. -/
def crc16 (l : List Byte) : Word16 := l.foldl crc16Byte 0xFFFF

/-- CRC-32: one bit, least significant bit first, of the polynomial 04C11DB7 hex reflected (R165). -/
def crc32Bit (c : Word32) : Word32 := if c.getLsbD 0 then (c >>> 1) ^^^ 0xEDB88320 else c >>> 1
/-- CRC-32: one byte. -/
def crc32Byte (c : Word32) (b : Byte) : Word32 := crc32Bit^[8] (c ^^^ b.setWidth 32)
/-- The CRC-32 of R165: register preset to all ones, reflected, inverted at the end. -/
def crc32 (l : List Byte) : Word32 := ~~~ (l.foldl crc32Byte 0xFFFFFFFF)

/-! ### Frames -/

/-- The frame bytes the CRC-16 is taken over: destination to last payload byte (R3, R183). -/
def checkedBytes (dst src kind : Byte) (payload : List Byte) : List Byte :=
  dst :: src :: kind :: BitVec.ofNat 8 payload.length :: payload

/-- A frame the part originates: source 0, its check value computed when it is offered (R5). -/
def originate (dst : Nat) (kind : Byte) (payload : List Byte) : Frame :=
  { dst := BitVec.ofNat 8 dst, src := 0, kind, payload,
    check := crc16 (checkedBytes (BitVec.ofNat 8 dst) 0 kind payload) }

/-- All bytes of a frame between its delimiters, before escaping (R183). -/
def frameBytes (f : Frame) : List Byte :=
  checkedBytes f.dst f.src f.kind f.payload ++ word16 f.check

/-- A frame byte as it goes on the line: F1, F2 and F3 hex as an escape pair (R183). -/
def escapeByte (b : Byte) : List Byte :=
  if b = 0xF1 ∨ b = 0xF2 ∨ b = 0xF3 then [0xF1, b - 0x10] else [b]

/-- The bytes between the delimiters on the line. -/
def escapeBytes (l : List Byte) : List Byte := l.flatMap escapeByte

/-- A frame on the line: start delimiter, escaped frame bytes, stop delimiter (R183). -/
def lineBytes (f : Frame) : List Byte := 0xF2 :: (escapeBytes (frameBytes f) ++ [0xF3])

/-- How a reception ends (R1, R183): with the frame bytes before the stop delimiter, or in a framing
error, with what the receiver does next. -/
inductive LineEnd where
  | bytes (l : List Byte)
  | broken (rx : RxState)
deriving DecidableEq, Repr

/-- A reception broken off by excess length or a bad escape: the line is ignored up to the next start
delimiter, which begins a new reception (R1; log entry 9). -/
def ignoreLine (rest : List Byte) : LineEnd := .broken (if rest.contains 0xF2 then .receiving else .ignoring)

/-- Reads the line after a start delimiter; `got` holds the decoded bytes, newest first. A stop
delimiter ends it well; the line going idle, a second start delimiter (which begins a new reception),
more than 126 bytes, and a bad escape end it in a framing error (R1, R183; log entry 9). -/
def scanLine (got : List Byte) : List Byte → LineEnd
  | [] => .broken .idle
  | b :: rest =>
    if b = 0xF3 then .bytes got.reverse
    else if b = 0xF2 then .broken .receiving
    else if b = 0xF1 then
      match rest with
      | [] => .broken .idle
      | e :: rest' =>
        if e = 0xF2 then .broken .receiving
        else if e = 0xF3 then .broken .idle
        else if e = 0xE1 ∨ e = 0xE2 ∨ e = 0xE3 then
          if got.length ≥ 126 then ignoreLine rest' else scanLine ((e + 0x10) :: got) rest'
        else ignoreLine rest'
    else if got.length ≥ 126 then ignoreLine rest
    else scanLine (b :: got) rest

/-- What the checks of R2 and R3 make of the bytes of a reception that passed the framing check. -/
inductive Arrival where
  | lengthError
  | checkError
  | good (f : Frame)
deriving DecidableEq, Repr

/-- The length check (R2), then the check value (R3). -/
def checkArrival (l : List Byte) : Arrival :=
  match l with
  | dst :: src :: kind :: len :: rest =>
    if len.toNat > 120 ∨ rest.length ≠ len.toNat + 2 then .lengthError
    else
      let payload := rest.take len.toNat
      let check : Word16 := BitVec.ofNat 16 (readNat (rest.drop len.toNat))
      if crc16 (checkedBytes dst src kind payload) = check then .good { dst, src, kind, payload, check }
      else .checkError
  | _ => .lengthError

/-! ### Kind codes (R183) and payloads the part knows -/

def kindTick : Byte := 0x01
def kindSample : Byte := 0x02
def kindStatus : Byte := 0x03
def kindCommand : Byte := 0x04
def kindSync : Byte := 0x05
def kindGuide : Byte := 0x06
def kindGuideBars : Byte := 0x07
def kindBatch : Byte := 0x08
def kindNotice : Byte := 0x09
def kindMgmt : Byte := 0x0A
def kindMreply : Byte := 0x0B
def kindCert : Byte := 0x0C

/-- The side byte of a COMMAND START or STOP (11, section 11.3). -/
def sideByte : Side → Byte
  | .left => 0
  | .right => 1

/-- The side a side byte names. -/
def sideOfByte (b : Byte) : Option Side :=
  if b = 0 then some .left else if b = 1 then some .right else none

/-- A COMMAND START of the part for a side. -/
def startFrame (dst : Nat) (sd : Side) : Frame := originate dst kindCommand [0x01, sideByte sd]
/-- A COMMAND STOP of the part for a side. -/
def stopFrame (dst : Nat) (sd : Side) : Frame := originate dst kindCommand [0x02, sideByte sd]

/-- A COMMAND START with source 0 for the side: known by its source and side, not its destination (R8, R9, R109). -/
def isStart (sd : Side) (f : Frame) : Bool :=
  f.kind == kindCommand && f.src == 0 && f.payload == [0x01, sideByte sd]

end Sys2Proof.Machine
end

