-- ==== Sys2Proof/Machine/Codes.lean ====
section
/-! DEFINITION. The byte codes of names: those of chapter 11 and R184, and those R185 counts from 0 in
the order of the rule or table that lists the names (log entries 12 and 13 where that leaves a choice). -/

namespace Sys2Proof.Machine

/-- The quantity codes (11, section 11.3). -/
def quantityCode : Quantity → Nat
  | .driveSpeedL => 0 | .driveSpeedR => 1 | .followSpeedL => 2 | .followSpeedR => 3
  | .followPulsesL => 4 | .followPulsesR => 5 | .brakeForceL => 6 | .brakeForceR => 7
  | .pedalForce => 8 | .wheelLoadL => 9 | .wheelLoadR => 10 | .axlePresentL => 11
  | .axlePresentR => 12 | .plateOccupied => 13 | .plateTravel => 14 | .plateLateral => 15

/-- Every quantity, in table order. -/
def allQuantities : List Quantity :=
  [.driveSpeedL, .driveSpeedR, .followSpeedL, .followSpeedR, .followPulsesL, .followPulsesR,
   .brakeForceL, .brakeForceR, .pedalForce, .wheelLoadL, .wheelLoadR, .axlePresentL, .axlePresentR,
   .plateOccupied, .plateTravel, .plateLateral]

/-- The quantity a code names. -/
def quantityOf (n : Nat) : Option Quantity := allQuantities[n]?

/-- A side's DRIVE_SPEED. -/
def driveSpeed : Side → Quantity
  | .left => .driveSpeedL
  | .right => .driveSpeedR
/-- A side's FOLLOW_SPEED. -/
def followSpeed : Side → Quantity
  | .left => .followSpeedL
  | .right => .followSpeedR
/-- A side's FOLLOW_PULSES. -/
def followPulses : Side → Quantity
  | .left => .followPulsesL
  | .right => .followPulsesR
/-- A side's BRAKE_FORCE. -/
def brakeForce : Side → Quantity
  | .left => .brakeForceL
  | .right => .brakeForceR
/-- A side's WHEEL_LOAD. -/
def wheelLoad : Side → Quantity
  | .left => .wheelLoadL
  | .right => .wheelLoadR

/-- Cadence codes (11). -/
def cadenceCode : Cadence → Nat
  | .a => 0
  | .b => 1
/-- Side codes (11; R111 lists L or R). -/
def sideCode : Side → Nat
  | .left => 0
  | .right => 1
/-- Role codes (11, section 11.5). -/
def roleCode : Role → Nat
  | .driveCabinet => 0 | .brakeHeadL => 1 | .brakeHeadR => 2 | .scaleHead => 3 | .plateHead => 4
  | .pedalHead => 5 | .display => 6 | .printer => 7 | .station => 8
/-- The role a code names. -/
def roleOf (n : Nat) : Option Role :=
  [Role.driveCabinet, .brakeHeadL, .brakeHeadR, .scaleHead, .plateHead, .pedalHead, .display, .printer, .station][n]?
/-- Disposition codes (11, section 11.5). -/
def dispositionCode : Disposition → Nat
  | .off => 0 | .raw => 1 | .converted => 2
/-- The disposition a code names. -/
def dispositionOf (n : Nat) : Option Disposition := [Disposition.off, .raw, .converted][n]?
/-- Step kind codes (11, section 11.5). -/
def stepKindCode : StepKind → Nat
  | .axleIn => 1 | .weigh => 2 | .spin => 3 | .service => 4 | .hold => 5 | .park => 6 | .stop => 7
  | .axleOut => 8 | .finish => 9
/-- The step kind a code names. -/
def stepKindOf (n : Nat) : Option StepKind :=
  [none, some StepKind.axleIn, some .weigh, some .spin, some .service, some .hold, some .park, some .stop,
   some .axleOut, some .finish].getD n none
/-- Timeout action codes (11, section 11.5). -/
def actionCode : TimeoutAction → Nat
  | .rep => 1 | .skip => 2 | .abort => 3
/-- The timeout action a code names. -/
def actionOf (n : Nat) : Option TimeoutAction :=
  [none, some TimeoutAction.rep, some .skip, some .abort].getD n none
/-- Table codes (11). -/
def tableCode : Table → Nat
  | .headDirectory => 0 | .channelMap => 1 | .calibration => 2 | .classLimits => 3 | .testPlan => 4
  | .startRules => 5 | .laneSettings => 6
/-- The table a code names. -/
def tableOf (n : Nat) : Option Table :=
  [Table.headDirectory, .channelMap, .calibration, .classLimits, .testPlan, .startRules, .laneSettings][n]?
/-- A flag byte's value: no 0, yes 1, every other byte out of range. -/
def boolOf (n : Nat) : Option Bool := [false, true][n]?
/-- The cadence a code names. -/
def cadenceOf (n : Nat) : Option Cadence := [Cadence.a, .b][n]?

/-- Validation check names in the order of R54; rows 4 and 5 of its table name none. -/
def checkCode : CheckName → Nat
  | .duplicateNode => 0 | .driveCabinetCount => 1 | .displayCount => 2 | .duplicateKey => 3
  | .duplicateQuantity => 4 | .badCalibration => 5 | .emptyClass => 6 | .forceOrder => 7 | .planEmpty => 8
  | .planGap => 9 | .planEnd => 10 | .finishForm => 11 | .settingUnset => 12 | .settingOrder => 13

/-- Lane states in the order of chapter 4's table. -/
def laneCode : LaneState → Nat
  | .off => 0 | .idle => 1 | .manual => 2 | .entry => 3 | .testing => 4 | .pausing => 5 | .paused => 6
  | .halted => 7 | .exit => 8

/-- The GO requests (R66; codes of chapter 11). -/
inductive GoRequest where
  | idle | off | manual | entry | test | entryToTest | pause | resume
deriving DecidableEq, Repr

/-- GO codes (11). -/
def goCode : GoRequest → Nat
  | .idle => 1 | .off => 2 | .manual => 3 | .entry => 4 | .test => 5 | .entryToTest => 6 | .pause => 7
  | .resume => 8

/-- The occasions of a LANE_STATE notice (R64). -/
inductive LaneOccasion where
  | go (g : GoRequest)
  | autoTest | pauseCause | resumed | stepEnd | estop | cancel | exitReady | close | laneReset
deriving DecidableEq, Repr

/-- LANE_STATE occasions from 0: the GO requests in the order of their codes, then the list of R64
(DEDUCED, log entry 12). -/
def occasionCode : LaneOccasion → Nat
  | .go g => goCode g - 1
  | .autoTest => 8 | .pauseCause => 9 | .resumed => 10 | .stepEnd => 11 | .estop => 12 | .cancel => 13
  | .exitReady => 14 | .close => 15 | .laneReset => 16

/-- STEP_BEGIN occasions in the order of R88. -/
def beginCode : BeginOccasion → Nat
  | .advance => 0 | .rep => 1 | .restart => 2 | .rerun => 3

/-- The endings of a step (R89). -/
inductive StepEnding where
  | completed | ng | timeout
deriving DecidableEq, Repr
/-- The outcomes of a step (R89). -/
inductive StepOutcome where
  | ok | rep | skipped | aborted
deriving DecidableEq, Repr
/-- Step ending codes in the order of R89. -/
def stepEndingCode : StepEnding → Nat
  | .completed => 0 | .ng => 1 | .timeout => 2
/-- Step outcome codes in the order of R89. -/
def stepOutcomeCode : StepOutcome → Nat
  | .ok => 0 | .rep => 1 | .skipped => 2 | .aborted => 3

/-- Side endings in the order of chapter 7's state table (DEDUCED, log entry 13). -/
def endingCode : Ending → Nat
  | .none => 0 | .locked => 1 | .released => 2 | .windows => 3 | .stopped => 4 | .timedOut => 5

/-- Verdict bytes (R184). -/
def verdictCode : Verdict → Nat
  | .notApplicable => 0 | .pass => 1 | .fail => 2 | .notEvaluated => 3
/-- Overall verdict bytes (R184). -/
def overallCode : Overall → Nat
  | .pass => 1 | .fail => 2 | .incomplete => 3
/-- Plate outcome bytes (R184, R185). -/
def plateCode : PlateOutcome → Nat
  | .valid => 1 | .invalidData => 2 | .invalidShort => 3 | .invalidSpeed => 4 | .reverse => 5

/-- Origins in the order of R111. -/
def originCode : Origin → Nat
  | .station => 0 | .sequence => 1 | .supervisor => 2
/-- The actions of a POLICY notice (R111). -/
inductive PolicyAction where
  | held | released | refused | cancelled | uncommanded
deriving DecidableEq, Repr
/-- The reasons of a POLICY notice (R111). -/
inductive PolicyReason where
  | startRules | estop | interlock | overtemperature | alreadyHeld | notStopped | queueFull | stop | lane
  | contactor
deriving DecidableEq, Repr
/-- Policy actions in the order of R111. -/
def policyActionCode : PolicyAction → Nat
  | .held => 0 | .released => 1 | .refused => 2 | .cancelled => 3 | .uncommanded => 4
/-- Policy reasons in the order of R111. -/
def policyReasonCode : PolicyReason → Nat
  | .startRules => 0 | .estop => 1 | .interlock => 2 | .overtemperature => 3 | .alreadyHeld => 4
  | .notStopped => 5 | .queueFull => 6 | .stop => 7 | .lane => 8 | .contactor => 9

/-- The conditions of a STALE notice (R37). -/
inductive StaleCondition where
  | stale | fresh | noValue | cleared
deriving DecidableEq, Repr
/-- STALE conditions in the order of R37. -/
def staleCode : StaleCondition → Nat
  | .stale => 0 | .fresh => 1 | .noValue => 2 | .cleared => 3

/-- The occasions of an applied switch (R62). -/
inductive SwitchOccasion where
  | request | close | cancel | laneReset
deriving DecidableEq, Repr
/-- Switch occasions in the order of R62. -/
def switchCode : SwitchOccasion → Nat
  | .request => 0 | .close => 1 | .cancel => 2 | .laneReset => 3

/-- Sync codes (11; TARE is 5 by R185). -/
def syncCode : SyncCode → Nat
  | .zero => 1 | .streamOn => 2 | .streamOff => 3 | .headRestart => 4 | .tare => 5
/-- Sync sources in the order of R179. -/
def sourceCode : SyncSource → Nat
  | .station => 0 | .sequence => 1 | .periodic => 2

/-- Roller states in the order of chapter 6's table. -/
def rollerCode : RollerState → Nat
  | .stopped => 0 | .held => 1 | .spinningUp => 2 | .running => 3 | .coasting => 4
/-- Step phases in the order of chapter 5's table. -/
def phaseCode : StepPhase → Nat
  | .none => 0 | .waiting => 1 | .running => 2 | .suspendedRestart => 3 | .suspendedContinue => 4
/-- Auto-test flag in the order of chapter 4's state table. -/
def autoCode : AutoTest → Nat
  | .clear => 0 | .armed => 1 | .due => 2

/-- The pause-cause set as one byte: bit i for the cause at place i of the list (R185). -/
def causesByte (c : PauseCauses) : Nat :=
  (if c.station then 1 else 0) + (if c.estop then 2 else 0) + (if c.headStale then 4 else 0)
    + (if c.driveFault then 8 else 0) + (if c.certFull then 16 else 0)
/-- The park-axle set as one byte: bit i for axle i + 1 (R185). -/
def parkByte (park : List Nat) : Nat := park.foldl (fun n a => n + 2 ^ (a - 1)) 0

end Sys2Proof.Machine
end

