-- ==== Sys2Proof/Machine/Operands.lean ====
section
/-! DEFINITION. What a command reads: entries of the table banks and their layout in requests (R52,
section 11.5), the entry that maps a quantity (R28), the values a tick close delivered (R38, R39),
and per-port and per-quantity access to the state. -/

namespace Sys2Proof.Machine

/-! ### Access by port, cadence, quantity and side -/

/-- A port's state. -/
def State.port (s : State) : Port → PortState
  | .head => s.head
  | .station => s.station
/-- The state with a port's state replaced. -/
def State.setPort (s : State) (p : Port) (x : PortState) : State :=
  match p with
  | .head => { s with head := x }
  | .station => { s with station := x }
/-- A cadence's state. -/
def State.cad (s : State) : Cadence → CadenceState
  | .a => s.cadA
  | .b => s.cadB
/-- The state with a cadence's state replaced. -/
def State.setCad (s : State) (c : Cadence) (x : CadenceState) : State :=
  match c with
  | .a => { s with cadA := x }
  | .b => { s with cadB := x }
/-- The last set of a cadence. -/
def State.lastSet (s : State) : Cadence → TickSet
  | .a => s.setA
  | .b => s.setB
/-- The state with the last set of a cadence replaced. -/
def State.setLastSet (s : State) (c : Cadence) (x : TickSet) : State :=
  match c with
  | .a => { s with setA := x }
  | .b => { s with setB := x }
/-- What the Conditioner keeps for a quantity. -/
def State.qty (s : State) (q : Quantity) : QuantityState :=
  s.quantities.getD (quantityCode q) QuantityState.reset
/-- The state with a quantity's part replaced. -/
def State.setQty (s : State) (q : Quantity) (x : QuantityState) : State :=
  { s with quantities := s.quantities.set (quantityCode q) x }
/-- A roller side. -/
def State.roller (s : State) (sd : Side) : RollerSide := s.rollers.sides.get sd
/-- The state with a roller side replaced. -/
def State.setRoller (s : State) (sd : Side) (x : RollerSide) : State :=
  { s with rollers := { s.rollers with sides := s.rollers.sides.set sd x } }
/-- The lane time now. -/
def State.now (s : State) : Word32 := s.clock.laneTime
/-- The difference of two lane times, later minus earlier, modulo 2³² (00, section 5.6). -/
def elapsedSince (now earlier : Word32) : Nat := (now - earlier).toNat

/-! ### Lookups in the working bank (R28, R48) -/

/-- The node of the enabled Head Directory entry of a role (DEDUCED, log entry 32). -/
def roleNode (b : Bank) (r : Role) : Option Nat :=
  b.directory.findSome? fun e => e.bind fun h => if h.enabled && h.role == r then some h.node else none

/-- The node of the working DRIVE_CABINET entry; none while the working bank is invalid (R16, R19, R50). -/
def cabinetNode (s : State) : Option Nat :=
  if s.banks.valid then roleNode s.working .driveCabinet else none

/-- The node of the enabled working DISPLAY entry (R102). -/
def displayNode (s : State) : Option Nat :=
  if s.banks.valid then roleNode s.working .display else none

/-- Whether the working Head Directory has an enabled PLATE_HEAD entry (R72, R143). -/
def hasPlateHead (s : State) : Bool := s.banks.valid && (roleNode s.working .plateHead).isSome

/-- A non-empty Channel Map entry is enabled when an enabled directory entry names its head (R28). -/
def enabledIn (b : Bank) (m : MapEntry) : Bool :=
  b.directory.any fun e => e.any fun h => h.enabled && h.node == m.node

/-- The enabled entry that names a quantity; none when it is not mapped (R28). -/
def mapped (s : State) (q : Quantity) : Option MapEntry :=
  if s.banks.valid then
    s.working.channels.findSome? fun e =>
      e.bind fun m => if m.quantity == q && enabledIn s.working m then some m else none
  else none

/-- The enabled entry with a key (R29). -/
def keyEntry (s : State) (node channel : Nat) : Option MapEntry :=
  if s.banks.valid then
    s.working.channels.findSome? fun e =>
      e.bind fun m =>
        if m.node == node && m.channel == channel && enabledIn s.working m then some m else none
  else none

/-- The working Lane Settings. The default is never read: the record is full whenever the working
bank is valid (R54 check 6; log entry 20). -/
def settings (s : State) : LaneSettings := s.working.settings.getD LaneSettings.powerOn

/-- The Lane Settings batch level. -/
def batchLevel (s : State) : Nat := (settings s).batchLevel.getD 1

/-- Limits that judge nothing, for the case that cannot be reached (log entry 20). -/
def ClassLimits.none : ClassLimits :=
  { serviceMin := 0, parkMin := 0, imbalanceMax := 0, ovalityMax := 0, sideSlipMax := 0, lockSlip := 1,
    lockConfirm := 1, engageForce := 1, releaseForce := 0, releaseConfirm := 1, imbalanceFloor := 1,
    ovalityFloor := 1, ovalityWindows := 1, wheelCircumference := 1500, plan := 0 }

/-- The working Class Limits of a class. -/
def limitsOf (s : State) (cls : Nat) : ClassLimits :=
  (s.working.classes.getD cls Option.none).getD ClassLimits.none

/-- The working Class Limits of the open vehicle's class. -/
def limits (s : State) : ClassLimits :=
  match s.vehicle with
  | some v => limitsOf s v.cls
  | none => ClassLimits.none

/-- The working Calibration entry of an index; the default converts everything to 0 and cannot be
reached (R54 check 4c; log entry 20). -/
def calOf (s : State) (i : Nat) : CalEntry :=
  (s.working.calibration.getD i Option.none).getD { rangeMin := 0, rangeMax := 0, points := [] }

/-- The window of start rule k, 1 to 4; an empty entry disables its rule as 0 does (R107). -/
def ruleWindow (s : State) (k : Nat) : Nat := (s.working.startRules.getD (k - 1) Option.none).getD 0

/-! ### Delivered values (R38, R39) -/

/-- The delivery record a consumer sees for a quantity: that of the last set of the cadence it is
mapped to; none when it is not mapped or not in that set. -/
def delivered (s : State) (q : Quantity) : Option Delivery :=
  (mapped s q).bind fun m => (s.lastSet m.cadence).records.getD (quantityCode q) none

/-- The value delivered, or none when absent. -/
def value (s : State) (q : Quantity) : Option Int := (delivered s q).bind (·.value)

/-- Whether the record carries the STALE mark. -/
def deliveredStale (s : State) (q : Quantity) : Bool := (delivered s q).any (·.stale)

/-- The quantity delivers the value x, fresh or held (R72, R84, R90, R149 to R151; log entry 10). -/
def delivers (s : State) (q : Quantity) (x : Int) : Bool :=
  (delivered s q).any fun d => d.value == some x && (d.cond == .fresh || d.cond == .held)

/-- As `delivers`, or the quantity is not mapped. -/
def deliversIfMapped (s : State) (q : Quantity) (x : Int) : Bool :=
  (mapped s q).isNone || delivers s q x

/-! ### Table entries in requests and replies (R52, section 11.5) -/

/-- The number of entries of a table (03, section 3.1). -/
def entryCount : Table → Nat
  | .headDirectory => 16 | .channelMap => 64 | .calibration => 32 | .classLimits => 8 | .testPlan => 192
  | .startRules => 4 | .laneSettings => 1

/-- The number that `w` bytes from offset `o` spell. -/
def field (l : List Byte) (o w : Nat) : Nat := readNat ((l.drop o).take w)
/-- The signed number that `w` bytes from offset `o` spell. -/
def fieldInt (l : List Byte) (o w : Nat) : Int := readInt ((l.drop o).take w)
/-- A number within a range. -/
def inRange (lo n hi : Nat) : Bool := lo ≤ n && n ≤ hi

/-- Head Directory entry from its field bytes. -/
def parseHead (l : List Byte) : Option HeadEntry :=
  (roleOf (field l 1 1)).bind fun role =>
  (boolOf (field l 2 1)).bind fun enabled =>
    let node := field l 0 1
    if match role with
       | .printer => node == 61
       | .station => node == 62
       | _ => inRange 1 node 47
    then some { node, role, enabled } else none

/-- Head Directory entry as field bytes. -/
def encodeHead (h : HeadEntry) : List Byte := be8 h.node ++ be8 (roleCode h.role) ++ flagByte h.enabled

/-- Channel Map entry from its field bytes. -/
def parseMap (l : List Byte) : Option MapEntry :=
  (quantityOf (field l 2 1)).bind fun quantity =>
  (cadenceOf (field l 3 1)).bind fun cadence =>
  (boolOf (field l 5 1)).bind fun tareable =>
  (dispositionOf (field l 6 1)).bind fun disposition =>
    if inRange 1 (field l 0 1) 47 && inRange 0 (field l 1 1) 7 && inRange 0 (field l 4 1) 31
        && inRange 1 (field l 8 1) 50
    then some { node := field l 0 1, channel := field l 1 1, quantity, cadence,
                calibration := field l 4 1, tareable, disposition,
                decimation := field l 7 1, holdLimit := field l 8 1 }
    else none

/-- Channel Map entry as field bytes. -/
def encodeMap (m : MapEntry) : List Byte :=
  be8 m.node ++ be8 m.channel ++ be8 (quantityCode m.quantity) ++ be8 (cadenceCode m.cadence)
    ++ be8 m.calibration ++ flagByte m.tareable ++ be8 (dispositionCode m.disposition)
    ++ be8 m.decimation ++ be8 m.holdLimit

/-- Whether a number lies within −2,000,000 to 2,000,000. -/
def inSpan (x : Int) : Bool := decide (-2000000 ≤ x) && decide (x ≤ 2000000)

/-- `m` breakpoints from their bytes: raw in two, value in three. -/
def parsePoints : Nat → List Byte → List (Int × Int)
  | 0, _ => []
  | m + 1, l => (fieldInt l 0 2, fieldInt l 2 3) :: parsePoints m (l.drop 5)

/-- Calibration entry from its field bytes. -/
def parseCal (l : List Byte) : Option CalEntry :=
  let m := field l 0 1
  let points := parsePoints m (l.drop 7)
  if inRange 2 m 8 && inSpan (fieldInt l 1 3) && inSpan (fieldInt l 4 3) && points.all (fun p => inSpan p.2)
  then some { rangeMin := fieldInt l 1 3, rangeMax := fieldInt l 4 3, points } else none

/-- A signed number of at most 24 bits in three bytes, as a table field. -/
def tableInt24 (x : Int) : List Byte := be24 (BitVec.ofInt 24 x).toNat

/-- Calibration entry as field bytes. -/
def encodeCal (e : CalEntry) : List Byte :=
  be8 e.points.length ++ tableInt24 e.rangeMin ++ tableInt24 e.rangeMax
    ++ e.points.flatMap fun p => signed16 p.1 ++ tableInt24 p.2

/-- Class Limits entry from its field bytes. -/
def parseClass (l : List Byte) : Option ClassLimits :=
  if inRange 0 (field l 0 2) 9999 && inRange 0 (field l 2 2) 9999 && inRange 0 (field l 4 2) 1000
      && inRange 0 (field l 6 2) 1000 && inRange 0 (field l 8 2) 9999 && inRange 1 (field l 10 2) 1000
      && inRange 1 (field l 12 1) 50 && inRange 1 (field l 13 3) 100000 && inRange 0 (field l 16 3) 100000
      && inRange 1 (field l 19 1) 50 && inRange 1 (field l 20 3) 100000 && inRange 1 (field l 23 3) 100000
      && inRange 1 (field l 26 1) 16 && inRange 1500 (field l 27 2) 4000 && inRange 0 (field l 29 1) 7
  then some { serviceMin := field l 0 2, parkMin := field l 2 2, imbalanceMax := field l 4 2,
              ovalityMax := field l 6 2, sideSlipMax := field l 8 2, lockSlip := field l 10 2,
              lockConfirm := field l 12 1, engageForce := field l 13 3, releaseForce := field l 16 3,
              releaseConfirm := field l 19 1, imbalanceFloor := field l 20 3, ovalityFloor := field l 23 3,
              ovalityWindows := field l 26 1, wheelCircumference := field l 27 2, plan := field l 29 1 }
  else none

/-- Class Limits entry as field bytes. -/
def encodeClass (c : ClassLimits) : List Byte :=
  be16 c.serviceMin.toNat ++ be16 c.parkMin.toNat ++ be16 c.imbalanceMax.toNat ++ be16 c.ovalityMax.toNat
    ++ be16 c.sideSlipMax.toNat ++ be16 c.lockSlip.toNat ++ be8 c.lockConfirm ++ be24 c.engageForce.toNat
    ++ be24 c.releaseForce.toNat ++ be8 c.releaseConfirm ++ be24 c.imbalanceFloor.toNat
    ++ be24 c.ovalityFloor.toNat ++ be8 c.ovalityWindows ++ be16 c.wheelCircumference ++ be8 c.plan

/-- Test Plan step from its field bytes. -/
def parseStep (l : List Byte) : Option PlanStep :=
  (stepKindOf (field l 0 1)).bind fun kind =>
  (actionOf (field l 5 1)).bind fun action =>
  (boolOf (field l 7 1)).bind fun parkOnly =>
    if inRange 0 (field l 2 3) 600000 && inRange 0 (field l 6 1) 3
    then some { kind, message := BitVec.ofNat 8 (field l 1 1), timeout := field l 2 3, action,
                repeatLimit := field l 6 1, parkOnly }
    else none

/-- Test Plan step as field bytes. -/
def encodeStep (p : PlanStep) : List Byte :=
  be8 (stepKindCode p.kind) ++ [p.message] ++ be24 p.timeout ++ be8 (actionCode p.action)
    ++ be8 p.repeatLimit ++ flagByte p.parkOnly

/-- Start Rules window from its field bytes. -/
def parseRule (l : List Byte) : Option Nat :=
  if inRange 0 (field l 0 3) 600000 then some (field l 0 3) else none

/-- Start Rules window as field bytes. -/
def encodeRule (w : Nat) : List Byte := be24 w

/-- Lane Settings record from its field bytes; pause-cause enables with a bit above 1 set are out of
range (DEDUCED, log entry 17). -/
def parseSettings (l : List Byte) : Option LaneSettings :=
  if inRange 100 (field l 0 2) 400 && inRange 8 (field l 2 2) 1024 && inRange 1 (field l 4 2) 1000
      && inRange 100 (field l 6 2) 10000 && inRange 500 (field l 8 2) 10000 && inRange 500 (field l 10 2) 1000
      && inRange 10 (field l 12 2) 10000 && inRange 2 (field l 14 1) 50 && inRange 1 (field l 15 1) 200
      && inRange 100 (field l 16 2) 3000 && inRange 1 (field l 18 2) 10000 && inRange 1 (field l 20 2) 10000
      && inRange 0 (field l 23 1) 3 && inRange 1 (field l 24 1) 32
  then some { followerCircumference := some (field l 0 2), pulsesPerRev := some (field l 2 2),
              standstillSpeed := field l 4 2, minDriveSpeed := field l 6 2, spinUpWindow := field l 8 2,
              spinUpFraction := field l 10 2, stabilitySpread := field l 12 2, settleCount := field l 14 1,
              barInterval := field l 15 1, plateMinTravel := field l 16 2, speedLow := field l 18 2,
              speedHigh := field l 20 2, rezeroPeriod := field l 22 1,
              headStaleEnable := field l 23 1 % 2 == 1, driveFaultEnable := field l 23 1 / 2 == 1,
              batchLevel := some (field l 24 1) }
  else none

/-- Lane Settings record as field bytes; an unset field reads as all ones (section 11.5). -/
def encodeSettings (x : LaneSettings) : List Byte :=
  be16 (x.followerCircumference.getD 0xFFFF) ++ be16 (x.pulsesPerRev.getD 0xFFFF)
    ++ be16 x.standstillSpeed.toNat ++ be16 x.minDriveSpeed.toNat ++ be16 x.spinUpWindow
    ++ be16 x.spinUpFraction.toNat ++ be16 x.stabilitySpread.toNat ++ be8 x.settleCount ++ be8 x.barInterval
    ++ be16 x.plateMinTravel.toNat ++ be16 x.speedLow.toNat ++ be16 x.speedHigh.toNat ++ be8 x.rezeroPeriod
    ++ be8 ((if x.headStaleEnable then 1 else 0) + (if x.driveFaultEnable then 2 else 0))
    ++ be8 (x.batchLevel.getD 0xFF)

/-- An entry with its present byte, empty or full. -/
def encodeEntry {α : Type} (enc : α → List Byte) : Option α → List Byte
  | none => [0]
  | some x => 1 :: enc x

/-- An entry from its bytes: present byte 0 alone is empty, 1 is full; `none` is out of range. -/
def parseEntry {α : Type} (parse : List Byte → Option α) (l : List Byte) : Option (Option α) :=
  match l with
  | [] => none
  | b :: rest =>
    if b = 0 then some none else if b = 1 then (parse rest).map some else none

/-- The length of the entry at the head of the bytes: 1 when empty, else that of a full entry
(log entry 17 for a present byte above 1). -/
def entryLength (t : Table) (l : List Byte) : Nat :=
  if l.head? = some 0 then 1
  else match t with
    | .headDirectory => 4
    | .channelMap => 10
    | .calibration => 8 + 5 * field l 1 1
    | .classLimits => 31
    | .testPlan => 9
    | .startRules => 4
    | .laneSettings => 26

/-- Cuts `count` entries off the bytes; none when the bytes are too few or some are left (R181). -/
def splitEntries (t : Table) : Nat → List Byte → Option (List (List Byte))
  | 0, l => if l.isEmpty then some [] else none
  | k + 1, l =>
    let w := entryLength t l
    if w ≤ l.length then (splitEntries t k (l.drop w)).map (l.take w :: ·) else none

/-- A run of entries written over a table from an index on. -/
def writeSlice {α : Type} (old : List α) (first : Nat) (new : List α) : List α :=
  old.take first ++ new ++ old.drop (first + new.length)

/-- The entries of a request for a table: the index of the first one out of range, or all of them. -/
def parseEntries {α : Type} (parse : List Byte → Option α) (i : Nat) : List (List Byte) → Nat ⊕ List (Option α)
  | [] => .inr []
  | e :: rest =>
    match parseEntry parse e with
    | none => .inl i
    | some x =>
      match parseEntries parse (i + 1) rest with
      | .inl k => .inl k
      | .inr xs => .inr (x :: xs)

/-- A bank with the parsed entries of a TABLE_WRITE written, or the first entry found wanting (R51). -/
def writeTable (b : Bank) (t : Table) (first : Nat) (parts : List (List Byte)) : Nat ⊕ Bank :=
  match t with
  | .headDirectory =>
    (parseEntries parseHead first parts).map id fun es => { b with directory := writeSlice b.directory first es }
  | .channelMap =>
    (parseEntries parseMap first parts).map id fun es => { b with channels := writeSlice b.channels first es }
  | .calibration =>
    (parseEntries parseCal first parts).map id fun es => { b with calibration := writeSlice b.calibration first es }
  | .classLimits =>
    (parseEntries parseClass first parts).map id fun es => { b with classes := writeSlice b.classes first es }
  | .testPlan =>
    (parseEntries parseStep first parts).map id fun es => { b with plans := writeSlice b.plans first es }
  | .startRules =>
    (parseEntries parseRule first parts).map id fun es => { b with startRules := writeSlice b.startRules first es }
  | .laneSettings =>
    (parseEntries parseSettings first parts).map id fun es =>
      { b with settings := (writeSlice [b.settings] first es).headD none }

/-- A run of a table's entries as bytes (R53). -/
def readTable (b : Bank) (t : Table) (first count : Nat) : List Byte :=
  match t with
  | .headDirectory => ((b.directory.drop first).take count).flatMap (encodeEntry encodeHead)
  | .channelMap => ((b.channels.drop first).take count).flatMap (encodeEntry encodeMap)
  | .calibration => ((b.calibration.drop first).take count).flatMap (encodeEntry encodeCal)
  | .classLimits => ((b.classes.drop first).take count).flatMap (encodeEntry encodeClass)
  | .testPlan => ((b.plans.drop first).take count).flatMap (encodeEntry encodeStep)
  | .startRules => ((b.startRules.drop first).take count).flatMap (encodeEntry encodeRule)
  | .laneSettings => (([b.settings].drop first).take count).flatMap (encodeEntry encodeSettings)

end Sys2Proof.Machine
end

