-- ==== Sys2Proof/Machine/Ops.lean ====
section
/-! DEFINITION. The named operations of the ports (R4 to R10), the counts (R21), and what every block
offers through them: notices (R185), replies (R182), SYNC issues (R177, R179), GUIDE frames (R102,
R103) and the roller STOPs and STARTs at the head port (R7, R9). -/

namespace Sys2Proof.Machine

/-! ### Capacities (00 section 2, R4, R5, R166, R179) -/

/-- The receive FIFO's capacity (R4). -/
def fifoCap : Port → Nat
  | .head => 32
  | .station => 16
/-- The transmit queue's capacity (R5). -/
def queueCap : Port → Nat
  | .head => 16
  | .station => 32
/-- The Certificate Queue's capacity (R166). -/
def certCap : Nat := 4
/-- The Sync Log's capacity (R179). -/
def logCap : Nat := 32

/-! ### Counts -/

/-- The state with the live counts changed. -/
def State.count (s : State) (f : Counters → Counters) : State := { s with live := f s.live }

/-- The state with a port's live counts changed. -/
def State.countPort (s : State) (p : Port) (f : PortCounts → PortCounts) : State :=
  match p with
  | .head => s.count fun c => { c with head := f c.head }
  | .station => s.count fun c => { c with station := f c.station }

/-- The state with a quantity's live counts changed. -/
def State.countQty (s : State) (q : Quantity) (f : QuantityCounts → QuantityCounts) : State :=
  s.count fun c => { c with quantities := c.quantities.modify (quantityCode q) f }

/-- A transmit overrun of a port (R5). -/
def overrun (p : Port) (s : State) : State := s.countPort p fun c => { c with txOverrun := c.txOverrun + 1 }

/-! ### Transmitters (R6, R8) -/

/-- The head port's arbiter: when idle it takes the urgent slot, then the queue head place, then the
head of the transmit queue (R8). -/
def takeHead (s : State) : State :=
  match s.head.tx with
  | .idle =>
    match s.urgent with
    | some w => { s with urgent := none, head := { s.head with tx := .taken w.frame } }
    | none =>
      match s.headPlace with
      | some w => { s with headPlace := none, head := { s.head with tx := .taken w.frame } }
      | none =>
        match s.head.queue with
        | f :: rest => { s with head := { s.head with queue := rest, tx := .taken f } }
        | [] => s
  | _ => s

/-- The station port's transmitter: when idle it takes the head of its queue (R6). -/
def takeStation (s : State) : State :=
  match s.station.tx with
  | .idle =>
    match s.station.queue with
    | f :: rest => { s with station := { s.station with queue := rest, tx := .taken f } }
    | [] => s
  | _ => s

/-- A port's transmitter takes its next frame if it is idle. -/
def takeNext (p : Port) (s : State) : State :=
  match p with
  | .head => takeHead s
  | .station => takeStation s

/-- Whether a port's transmit queue has a free place (R5). -/
def hasRoom (p : Port) (s : State) : Bool := (s.port p).queue.length < queueCap p

/-- A frame offered to a port's transmit queue: accepted at the tail, or refused; the offering block
is told at once (R5). -/
def offer (p : Port) (f : Frame) (s : State) : State × Bool :=
  if hasRoom p s then
    (takeNext p (s.setPort p { s.port p with queue := (s.port p).queue ++ [f] }), true)
  else (s, false)

/-- An offer whose refusal is counted as a transmit overrun, the default of R5. -/
def offerCounted (p : Port) (f : Frame) (s : State) : State :=
  let r := offer p f s
  if r.2 then r.1 else overrun p r.1

/-! ### The urgent places (R7, R9) -/

/-- Whether a START with source 0 for the side waits in the head transmit queue (R9). -/
def startQueued (sd : Side) (s : State) : Bool := s.head.queue.any (isStart sd)

/-- A STOP for a side placed by R7: merged with a waiting one of its side, else in the urgent slot
when that is empty, else in the queue head place. -/
def placeStop (sd : Side) (f : Frame) (s : State) : State :=
  if s.urgent.any (·.side == sd) || s.headPlace.any (·.side == sd) then s
  else if s.urgent.isNone then { s with urgent := some { side := sd, frame := f } }
  else { s with headPlace := some { side := sd, frame := f } }

/-- A STOP for a side offered to the head port: the side's waiting STARTs are removed (R9), the STOP is
placed (R7), and an idle transmitter takes it (R8). The flag tells whether a START was removed; the
side's outstanding START then ceases (R109). -/
def offerStop (sd : Side) (s : State) : State × Bool :=
  let removed := startQueued sd s
  let s1 := { s with head := { s.head with queue := s.head.queue.filter fun f => !isStart sd f } }
  let s2 := if removed then s1.setRoller sd { s1.roller sd with outstanding := false } else s1
  (takeHead (placeStop sd (stopFrame ((cabinetNode s).getD 0) sd) s2), removed)

/-! ### Notices and replies (R182, R185) -/

/-- A NOTICE to the lane station; refused, it is discarded and counted by R5. -/
def notice (code : Byte) (fields : List Byte) (s : State) : State :=
  offerCounted .station (originate 62 kindNotice (code :: fields)) s

/-- An MREPLY to a requester: request code, status, content; refused, it is dropped and counted (R182). -/
def reply (src : Nat) (code status : Byte) (content : List Byte) (s : State) : State :=
  let r := offer .station (originate src kindMreply (code :: status :: content)) s
  if r.2 then r.1 else r.1.count fun c => { c with droppedReplies := c.droppedReplies + 1 }

def statusDone : Byte := 0
def statusBusy : Byte := 1
def statusRefused : Byte := 2
def statusBadArgument : Byte := 3
def statusBadTable : Byte := 4
def statusPending : Byte := 5
def statusNotOldest : Byte := 6
def statusUnknown : Byte := 7
/-- The detail byte of a malformed request (R181). -/
def detailMalformed : Byte := 1
/-- The detail byte of a field out of range (R181). -/
def detailRange : Byte := 2

/-- The STALE notice (R37). -/
def staleNotice (q : Quantity) (c : StaleCondition) (tareKept : Bool) (s : State) : State :=
  notice 0x09 (be8 (quantityCode q) ++ word32 s.now ++ be8 (staleCode c) ++ flagByte tareKept) s

/-- The POLICY notice (R111). -/
def policyNotice (sd : Side) (o : Origin) (a : PolicyAction) (r : Option PolicyReason) (s : State) : State :=
  notice 0x06 (word32 s.now ++ be8 (sideCode sd) ++ be8 (originCode o) ++ be8 (policyActionCode a)
    ++ optional (fun r => be8 (policyReasonCode r)) r) s

/-- The CERT_SENT notice of a send (R167), its event coded 0 (the model's reading, log entry 55). -/
def certSentNotice (number : Word32) (count : Nat) (s : State) : State :=
  notice 0x0C (be8 0 ++ word32 number ++ be8 count ++ word32 s.now) s

/-- The CERT_SENT notice of an acknowledge (R169), its event coded 1 (the model's reading, log entry 55). -/
def certAckNotice (number : Word32) (s : State) : State := notice 0x0C (be8 1 ++ word32 number) s

/-! ### Sync (R177, R179) -/

/-- The half flag: set while the log holds more than 16 entries (R179). -/
def halfFlag (l : SyncLog) : Bool := 16 < l.entries.length

/-- An entry offered to the Sync Log: added at the tail, or dropped with the overflow count (R179). -/
def logSync (code : SyncCode) (source : SyncSource) (s : State) : State × Bool :=
  if s.syncLog.entries.length < logCap then
    ({ s with syncLog := { s.syncLog with
        entries := s.syncLog.entries ++ [{ time := s.now, code, source }] } }, true)
  else ({ s with syncLog := { s.syncLog with overflow := min (s.syncLog.overflow + 1) 65535 } }, false)

/-- The SYNC notice (R177 item 4). -/
def syncNotice (code : SyncCode) (source : SyncSource) (logged : Bool) (s : State) : State :=
  notice 0x0B (word32 s.now ++ be8 (syncCode code) ++ be8 (sourceCode source) ++ flagByte logged
    ++ be8 s.syncLog.entries.length ++ flagByte (halfFlag s.syncLog)) s

/-- The first-sample flag of every enabled Channel Map entry set (R30). -/
def setFirstFlags (s : State) : State :=
  allQuantities.foldl (fun t q =>
    if (mapped t q).isSome then t.setQty q { t.qty q with firstSample := true } else t) s

/-- Items 1 to 3 of a sync broadcast's issue (R177); the flag tells whether the entry was logged. -/
def issueSync (code : SyncCode) (source : SyncSource) (s : State) : State × Bool :=
  let r := logSync code source s
  let s1 := if code == .streamOn || code == .headRestart then setFirstFlags r.1 else r.1
  (offerCounted .head (originate 63 kindSync (be8 (syncCode code))) s1, r.2)

/-- A sync broadcast issued whole (R177). -/
def syncBroadcast (code : SyncCode) (source : SyncSource) (s : State) : State :=
  let r := issueSync code source s
  syncNotice code source r.2 r.1

/-! ### Guidance (R102, R103) -/

/-- A GUIDE message as a frame to the DISPLAY node of the moment (R102, section 11.6). -/
def guideFrame (g : GuideMessage) (s : State) : Frame :=
  originate ((displayNode s).getD 0) kindGuide
    (g.message :: be8 g.axle ++
      match g.fields with
      | none => [0]
      | some (n, attempt) => 3 :: be8 n ++ be8 attempt)

/-- A GUIDE frame offered: accepted, an older pending message is discarded; refused, the message goes
into the pending-guide register (R103). -/
def offerGuide (g : GuideMessage) (s : State) : State :=
  let r := offer .head (guideFrame g s) s
  { r.1 with engine := { r.1.engine with pendingGuide := if r.2 then none else some g } }

end Sys2Proof.Machine
end

