-- ==== Sys2Proof/Machine/Flags.lean ====
section
/-! DEFINITION. The conditions the rules name: a test under way (R76), the quantities a step needs
(R77), a START permitted (R107), the lane empty (R84), the steps of a plan and which of them are
runnable (R54, R80, R86). -/

namespace Sys2Proof.Machine

/-! ### Lane and rollers -/

/-- TESTING, PAUSING or PAUSED. -/
def inTest : LaneState → Bool
  | .testing | .pausing | .paused => true
  | .off | .idle | .manual | .entry | .halted | .exit => false

/-- A test is under way (R76). -/
def testUnderWay (s : State) : Bool :=
  s.vehicle.isSome && (inTest s.lane.state || (s.lane.state == .halted && s.lane.remembered.any inTest))

/-- Both sides are STOPPED. -/
def bothStopped (s : State) : Bool :=
  (s.roller .left).state == .stopped && (s.roller .right).state == .stopped

/-- Both sides are RUNNING. -/
def bothRunning (s : State) : Bool :=
  (s.roller .left).state == .running && (s.roller .right).state == .running

/-- No pause cause is in the set. -/
def noCause (c : PauseCauses) : Bool :=
  !(c.station || c.estop || c.headStale || c.driveFault || c.certFull)

/-- Either overtemperature flag is set. -/
def anyOvertemp (s : State) : Bool := (s.roller .left).overtemp || (s.roller .right).overtemp

/-- Each mapped one of the three presence quantities delivers 0, fresh or held (R84). -/
def laneEmpty (s : State) : Bool :=
  deliversIfMapped s .axlePresentL 0 && deliversIfMapped s .axlePresentR 0
    && deliversIfMapped s .plateOccupied 0

/-! ### The start rules (R107) -/

/-- The history entries within the last `w` ms. -/
def countWithin (history : List HistoryEntry) (now : Word32) (w : Nat) : Nat :=
  (history.filter fun e => !e.aged && decide (elapsedSince now e.time < w)).length

/-- A START for the side is permitted now. -/
def permitted (s : State) (sd : Side) : Bool :=
  [1, 2, 3, 4].all fun k =>
    ruleWindow s k == 0 || decide (countWithin (s.roller sd).history s.now (ruleWindow s k) < k)

/-! ### Plans (R54, R86) -/

/-- The entries of a plan number, 24 of them. -/
def planEntries (b : Bank) (plan : Nat) : List (Option PlanStep) := (b.plans.drop (24 * plan)).take 24

/-- The steps up to the first empty entry (R54). -/
def leading : List (Option PlanStep) → List PlanStep
  | some p :: rest => p :: leading rest
  | _ => []

/-- The steps of a plan. -/
def planSteps (b : Bank) (plan : Nat) : List PlanStep := leading (planEntries b plan)

/-- The axle section: the steps before FINISH. -/
def axleSection (b : Bank) (plan : Nat) : List PlanStep :=
  (planSteps b plan).takeWhile fun p => p.kind != .finish

/-- A step of the axle section is runnable in the pass for an axle (R86). -/
def runnable (park : List Nat) (axle : Nat) (p : PlanStep) : Bool := !p.parkOnly || park.contains axle

/-- The first runnable step of a pass from an index on. -/
def firstRunnable (sec : List PlanStep) (park : List Nat) (axle start : Nat) : Option Nat :=
  (List.range sec.length).find? fun i => decide (start ≤ i) && (sec[i]?).any (runnable park axle)

/-- The first runnable step of the next `passes` passes, from the pass for `axle` on. -/
def firstPass (sec : List PlanStep) (park : List Nat) : Nat → Nat → Option (Nat × Nat)
  | 0, _ => none
  | k + 1, axle =>
    match firstRunnable sec park axle 0 with
    | some i => some (axle, i)
    | none => firstPass sec park k (axle + 1)

/-- The axle index and step index of the next step from an index of a pass on (R86): in the pass, in
a later pass, or FINISH with axle index 0. -/
def findStep (sec : List PlanStep) (park : List Nat) (n axle start : Nat) : Nat × Nat :=
  match firstRunnable sec park axle start with
  | some i => (axle, i)
  | none => (firstPass sec park (n - axle) (axle + 1)).getD (0, sec.length)

/-- The last runnable SPIN of the pass before a step (R80). -/
def spinBefore (sec : List PlanStep) (park : List Nat) (axle step : Nat) : Option Nat :=
  (List.range step).reverse.find? fun i =>
    (sec[i]?).any fun p => p.kind == .spin && runnable park axle p

/-! ### The current step -/

/-- The current step's plan entry. -/
def currentStep (s : State) : Option PlanStep :=
  s.engine.plan.bind fun plan => s.engine.step.bind fun i => (planSteps s.working plan)[i]?

/-- The current step's kind. -/
def currentKind (s : State) : Option StepKind := (currentStep s).map (·.kind)

/-- A step of the kind is current and RUNNING. -/
def runningKind (s : State) (k : StepKind) : Bool :=
  s.engine.phase == .running && currentKind s == some k

/-- SPIN, SERVICE, HOLD and PARK are the force steps. -/
def isForce : StepKind → Bool
  | .spin | .service | .hold | .park => true
  | .axleIn | .weigh | .stop | .axleOut | .finish => false

/-- SERVICE, HOLD and PARK are the measuring steps of the rollers. -/
def isMeasuring : StepKind → Bool
  | .service | .hold | .park => true
  | .axleIn | .weigh | .spin | .stop | .axleOut | .finish => false

/-- A SERVICE, HOLD or PARK step is RUNNING. -/
def measuringRuns (s : State) : Bool := s.engine.phase == .running && (currentKind s).any isMeasuring

/-- The quantities a step kind needs (R77). -/
def neededBy : StepKind → List Quantity
  | .axleIn | .axleOut => [.axlePresentL, .axlePresentR]
  | .weigh => [.wheelLoadL, .wheelLoadR]
  | .spin | .stop => [.driveSpeedL, .driveSpeedR, .followSpeedL, .followSpeedR]
  | .service | .park =>
    [.brakeForceL, .brakeForceR, .driveSpeedL, .driveSpeedR, .followSpeedL, .followSpeedR]
  | .hold =>
    [.brakeForceL, .brakeForceR, .driveSpeedL, .driveSpeedR, .followSpeedL, .followSpeedR,
     .followPulsesL, .followPulsesR]
  | .finish => []

/-- A mapped quantity needed by the current step is STALE (R76, R77). -/
def neededStale (s : State) : Bool :=
  (currentKind s).any fun k => (neededBy k).any fun q => (mapped s q).isSome && (s.qty q).stale

/-- The interlock's condition for a station START: MANUAL, or TESTING with a SPIN step RUNNING (R108). -/
def interlockOpen (s : State) : Bool :=
  s.lane.state == .manual || (s.lane.state == .testing && runningKind s .spin)

/-- The condition of a held START's origin (R110). -/
def originHolds (s : State) : Origin → Bool
  | .station => interlockOpen s
  | .sequence | .supervisor => runningKind s .spin && (s.lane.state == .testing || s.lane.state == .pausing)

end Sys2Proof.Machine
end

