-- ==== Sys2Proof/Machine/Conditioner.lean ====
section
/-! DEFINITION. The Channel Map and Conditioner (02, sections 2.2 to 2.5): taking a sample (R29, R30),
conversion (R31), tare and clamp (R32, R33), the quantities at a tick close (R34 to R38), and the
batches forwarded to the station (R40 to R44). -/

namespace Sys2Proof.Machine

/-! ### Batches (R41, R42, R44) -/

/-- Up to eight clamp flags as a byte, the first in bit 0 (11, section 11.3). -/
def flagBits (l : List Bool) : Nat := (l.take 8).foldr (fun b n => (if b then 1 else 0) + 2 * n) 0

/-- A batch as a BATCH frame (R41). -/
def batchFrame (q : Quantity) (b : Batch) : Frame :=
  let flags := b.values.map (·.2)
  originate 62 kindBatch (be8 (quantityCode q) ++ word16 b.firstTick ++ be8 b.values.length
    ++ be8 (flagBits flags) ++ be8 (flagBits (flags.drop 8)) ++ be8 (flagBits (flags.drop 16))
    ++ be8 (flagBits (flags.drop 24)) ++ b.values.flatMap fun v => signed24 v.1)

/-- A quantity's batch offered if it is not empty, and then emptied; a refused one is dropped and
counted (R42, R44). -/
def flushBatch (q : Quantity) (s : State) : State :=
  let b := (s.qty q).batch
  if b.values.isEmpty then s
  else
    let r := offer .station (batchFrame q b) (s.setQty q { s.qty q with batch := Batch.empty })
    if r.2 then r.1 else r.1.count fun c => { c with droppedBatches := c.droppedBatches + 1 }

/-- Every batch flushed, in the order of the quantity table (R42). -/
def flushBatches (s : State) : State := allQuantities.foldl (fun t q => flushBatch q t) s

/-- Every batch discarded without being offered (R45). -/
def discardBatches (s : State) : State :=
  { s with quantities := s.quantities.map fun x => { x with batch := Batch.empty } }

/-- A value added to a quantity's batch; a batch that is full is sent (R41). -/
def addToBatch (q : Quantity) (tick : Word16) (v : Int × Bool) (s : State) : State :=
  let b := (s.qty q).batch
  let b' : Batch :=
    if b.values.isEmpty then { firstTick := tick, values := [v] } else { b with values := b.values ++ [v] }
  let s1 := s.setQty q { s.qty q with batch := b' }
  if batchLevel s ≤ b'.values.length then flushBatch q s1 else s1

/-- The batch builder's work for one quantity of the closed cadence (R40). -/
def buildBatch (c : Cadence) (tick : Word16) (q : Quantity) (s : State) : State :=
  match mapped s q with
  | none => s
  | some m =>
    if m.cadence != c || m.disposition == .off then s
    else
      let x := s.qty q
      let s1 := s.setQty q { x with phase := if m.decimation ≤ x.phase then 0 else x.phase + 1 }
      if x.phase ≠ 0 then s1
      else
        match (delivered s q).bind (·.value) with
        | none => flushBatch q s1
        | some w =>
          let v : Int × Bool :=
            if m.disposition == .raw then (x.lastRaw.getD 0, false)
            else (w, (delivered s q).any (·.clamp))
          addToBatch q tick v s1

/-- The batch builder's work at a tick close. The batches that this close makes full are offered in the order of the
quantity table, among those it flushes: R42 gives that order for batches flushed at once, and R41 gives none for batches
sent when full (the model's choice, log entry 66). -/
def buildBatches (c : Cadence) (tick : Word16) (s : State) : State :=
  allQuantities.foldl (fun t q => buildBatch c tick q t) s

/-! ### Taking a sample (R29, R30) -/

/-- A late or duplicate value: discarded and counted. -/
def lateValue (q : Quantity) (s : State) : State := s.countQty q fun c => { c with late := c.late + 1 }

/-- One raw value of a SAMPLE: the state after it, and whether it was mapped. -/
def takeValue (node : Nat) (tick : Word16) (channel : Nat) (raw : Int) (s : State) : State × Bool :=
  match keyEntry s node channel with
  | none => (s, false)
  | some m =>
    let x := s.qty m.quantity
    match (s.cad m.cadence).openTick with
    | none => (lateValue m.quantity s, true)
    | some o =>
      if o.skipped || (s.cad m.cadence).tick != tick then (lateValue m.quantity s, true)
      else if x.pendingRaw.isSome || x.excused then (lateValue m.quantity s, true)
      else if x.firstSample then
        (s.setQty m.quantity { x with firstSample := false, excused := true }, true)
      else (s.setQty m.quantity { x with pendingRaw := some raw }, true)

/-- The raw values of a SAMPLE from a channel on, in order; the flag tells whether any was mapped. -/
def takeValues (node : Nat) (tick : Word16) : Nat → List Int → State → State × Bool
  | _, [], s => (s, false)
  | i, x :: rest, s =>
    let r := takeValue node tick i x s
    let r' := takeValues node tick (i + 1) rest r.1
    (r'.1, r.2 || r'.2)

/-- A SAMPLE that passed its content check (R29). -/
def takeSample (node : Nat) (tick : Word16) (raws : List Int) (s : State) : State :=
  let r := takeValues node tick 0 raws s
  if r.2 then r.1 else r.1.count fun c => { c with unmapped := c.unmapped + 1 }

/-! ### Conversion, tare and clamp (R31, R32, R33) -/

/-- A raw value between the breakpoints, from the first of them on (R31). -/
def interpolate (x : Int) : List (Int × Int) → Int
  | [] => 0
  | [p] => p.2
  | p :: q :: rest =>
    if x < q.1 then p.2 + ((x - p.1) * (q.2 - p.2)).tdiv (q.1 - p.1) else interpolate x (q :: rest)

/-- The calibrated value of a raw value (R31). -/
def convert (e : CalEntry) (x : Int) : Int :=
  match e.points with
  | [] => 0
  | p :: rest => if x ≤ p.1 then p.2 else interpolate x (p :: rest)

/-- A number clamped to a range. -/
def clampTo (lo hi x : Int) : Int := if x < lo then lo else if hi < x then hi else x

/-- The conditioned value with its clamp flag (R32). -/
def condition (e : CalEntry) (u tare : Int) : Int × Bool :=
  let w := u - tare
  let w' := clampTo e.rangeMin e.rangeMax w
  (w', w' != w)

/-- The tare of one quantity taken at GO_ENTRY (R33). One that is STALE and has no value has the notice
NO_VALUE (the model's choice, log entry 42). -/
def tareQuantity (q : Quantity) (s : State) : State :=
  match mapped s q with
  | none => s
  | some m =>
    if !m.tareable then s
    else
      let x := s.qty q
      match x.lastConv with
      | none => staleNotice q .noValue true s
      | some u => if x.stale then staleNotice q .stale true s else s.setQty q { x with tare := u }

/-- The tare of every tareable quantity (R33). -/
def takeTare (s : State) : State := allQuantities.foldl (fun t q => tareQuantity q t) s

/-! ### The tick close (R34 to R38) -/

/-- The condition of a mapped quantity at the close of an open tick (R34). -/
def conditionAt (o : OpenTick) (x : QuantityState) : Condition :=
  if o.void then .void
  else if o.skipped then .held
  else if x.pendingRaw.isSome then .fresh
  else if x.excused then .excused
  else .held

/-- The last values and the missing count of a quantity after a close (R34 to R36). -/
def closeValues (m : MapEntry) (e : CalEntry) (cond : Condition) (x : QuantityState) : QuantityState :=
  match cond with
  | .fresh =>
    { x with lastRaw := x.pendingRaw, lastConv := x.pendingRaw.map (convert e), missing := 0, stale := false }
  | .held =>
    if x.missing < m.holdLimit then
      { x with missing := x.missing + 1, stale := x.stale || decide (x.missing + 1 = m.holdLimit) }
    else x
  | .excused | .void => x

/-- The delivery record of a close (R34, R38). -/
def record (e : CalEntry) (cond : Condition) (x : QuantityState) : Delivery :=
  let w := if cond == .void then none else x.lastConv.map fun u => condition e u x.tare
  { value := w.map (·.1), conv := if cond == .void then none else x.lastConv,
    clamp := w.any (·.2), cond, stale := x.stale }

/-- One quantity at a tick close of the cadence: its record, its counts and its STALE notices (R34 to
R37); `none` when it is not of the cadence. -/
def closeQuantity (c : Cadence) (o : OpenTick) (q : Quantity) (s : State) : State × Option Delivery :=
  match mapped s q with
  | none => (s, none)
  | some m =>
    if m.cadence != c then (s, none)
    else
      let e := calOf s m.calibration
      let x := s.qty q
      let cond := conditionAt o x
      let y := closeValues m e cond x
      let d := record e cond y
      let z := { y with pendingRaw := none, excused := false,
                        lastCond := match d.value with
                          | some w => some w
                          | none => y.lastCond }
      let s1 := s.setQty q z
      let s2 := s1.countQty q fun k =>
        { k with clamps := k.clamps + (if d.clamp then 1 else 0),
                 holds := k.holds + (if cond == .held then 1 else 0) }
      let s3 :=
        if y.stale && !x.stale then staleNotice q .stale false s2
        else if x.stale && !y.stale then staleNotice q .fresh false s2
        else s2
      (s3, some d)

/-- The quantities that are STALE. -/
def staleQuantities (s : State) : List Quantity := allQuantities.filter fun q => (s.qty q).stale

end Sys2Proof.Machine
end

