-- ==== Sys2Proof/Machine/Banks.lean ====
section
/-! DEFINITION. The Table Banks (03): validation (R54) and the application of a switch (R57, R62) with
what it does to the Conditioner (R43). -/

namespace Sys2Proof.Machine

/-! ### Validation (R54) -/

/-- The first index of a list at which an entry fails. -/
def firstFault {α : Type} (l : List α) (bad : Nat → α → Bool) : Option Nat :=
  (List.range l.length).find? fun i => (l[i]?).any (bad i)

/-- The full entries below an index. -/
def below {α : Type} (l : List (Option α)) (i : Nat) : List α := (l.take i).filterMap id

/-- Check 1. -/
def checkNodes (b : Bank) : Option Failure :=
  (firstFault b.directory fun i e => e.any fun h => (below b.directory i).any fun g => g.node == h.node).map
    fun i => { check := .duplicateNode, table := .headDirectory, entry := some i }

/-- The number of enabled directory entries of a role. -/
def roleCount (b : Bank) (r : Role) : Nat :=
  ((b.directory.filterMap id).filter fun h => h.enabled && h.role == r).length

/-- Checks 2 and 3. -/
def checkRole (b : Bank) (r : Role) (name : CheckName) : Option Failure :=
  if roleCount b r = 1 then none else some { check := name, table := .headDirectory, entry := none }

/-- The raw breakpoints of a list strictly increase. -/
def increasing : List (Int × Int) → Bool
  | p :: q :: rest => decide (p.1 < q.1) && increasing (q :: rest)
  | _ => true

/-- A Calibration entry that check 4c accepts. -/
def goodCalibration (e : CalEntry) : Bool := increasing e.points && decide (e.rangeMin ≤ e.rangeMax)

/-- Checks 4a to 4c for one Channel Map entry. -/
def checkChannel (b : Bank) (i : Nat) : Option Failure :=
  match b.channels.getD i none with
  | none => none
  | some m =>
    if (below b.channels i).any fun x => x.node == m.node && x.channel == m.channel then
      some { check := .duplicateKey, table := .channelMap, entry := some i }
    else if enabledIn b m && (below b.channels i).any fun x => enabledIn b x && x.quantity == m.quantity then
      some { check := .duplicateQuantity, table := .channelMap, entry := some i }
    else if (b.calibration.getD m.calibration none).any goodCalibration then none
    else some { check := .badCalibration, table := .calibration, entry := some m.calibration }

/-- Checks 5c to 5f for the plan a class names. A plan whose last step is not FINISH and that holds an earlier
FINISH is reported at its last step (the model's choice, log entry 43). -/
def checkPlan (b : Bank) (plan : Nat) : Option Failure :=
  let entries := planEntries b plan
  let steps := planSteps b plan
  let at_ (name : CheckName) (i : Nat) : Option Failure :=
    some { check := name, table := .testPlan, entry := some (24 * plan + i) }
  if steps.isEmpty then at_ .planEmpty 0
  else
    match firstFault entries fun i e => e.isSome && decide (steps.length < i) with
    | some i => at_ .planGap i
    | none =>
      if (steps.getLast?).all fun p => p.kind != .finish then at_ .planEnd (steps.length - 1)
      else
        match firstFault steps.dropLast fun _ p => p.kind == .finish with
        | some i => at_ .planEnd i
        | none =>
          if (steps.getLast?).any fun p => p.parkOnly || p.timeout != 0 then
            at_ .finishForm (steps.length - 1)
          else none

/-- Checks 5a to 5f for one class. -/
def checkClass (b : Bank) (i : Nat) : Option Failure :=
  match b.classes.getD i none with
  | none => some { check := .emptyClass, table := .classLimits, entry := some i }
  | some c =>
    if c.engageForce ≤ c.releaseForce then
      some { check := .forceOrder, table := .classLimits, entry := some i }
    else checkPlan b c.plan

/-- Checks 6 and 7. -/
def checkSettings (b : Bank) : Option Failure :=
  match b.settings with
  | none => some { check := .settingUnset, table := .laneSettings, entry := some 0 }
  | some x =>
    if x.followerCircumference.isNone || x.pulsesPerRev.isNone || x.batchLevel.isNone then
      some { check := .settingUnset, table := .laneSettings, entry := some 0 }
    else if x.minDriveSpeed ≤ x.standstillSpeed ∨ x.speedHigh ≤ x.speedLow then
      some { check := .settingOrder, table := .laneSettings, entry := some 0 }
    else none

/-- The first check of R54 that a bank fails, or none. -/
def validate (b : Bank) : Option Failure :=
  (checkNodes b).or <| (checkRole b .driveCabinet .driveCabinetCount).or <|
  (checkRole b .display .displayCount).or <| ((List.range 64).findSome? (checkChannel b)).or <|
  ((List.range 8).findSome? (checkClass b)).or (checkSettings b)

/-! ### The application of a switch (R43, R57, R62) -/

/-- Items 2 and 3 of R43 for one quantity; its STALE condition waits for item 5. The mark that a value of the
open tick was discarded as first is cleared with them (the model's choice, log entry 45). -/
def clearQuantity (x : QuantityState) : QuantityState :=
  { x with lastRaw := none, lastConv := none, lastCond := none, missing := 0, tare := 0, phase := 0,
           pendingRaw := none, firstSample := false, excused := false }

/-- Item 4 of R43: the open tick of a running cadence becomes void. -/
def voidTick (x : CadenceState) : CadenceState :=
  if x.running then { x with openTick := x.openTick.map fun o => { o with void := true } } else x

/-- Items 1 to 4 of R43. -/
def clearConditioner (s : State) : State :=
  let t := flushBatches s
  { t with quantities := t.quantities.map clearQuantity, cadA := voidTick t.cadA, cadB := voidTick t.cadB }

/-- Item 5 of R43 for one quantity. -/
def clearStale (q : Quantity) (s : State) : State :=
  let x := s.qty q
  if x.stale then staleNotice q .cleared false (s.setQty q { x with stale := false }) else s

/-- Item 5 of R43, in the order of the quantity table (the model's choice, log entry 62). No test is under way, so the
Lane Controller has nothing to clear (R57, R76). -/
def clearStales (s : State) : State := allQuantities.foldl (fun t q => clearStale q t) s

/-- A held START is judged anew from the next lane millisecond on (R57); a test of the present one that has not
been taken is dropped (the model's choice, log entry 44). -/
def forgetTest (r : RollerSide) : RollerSide := { r with testDue := false }

/-- The BANK notice with event APPLIED (R62). -/
def appliedNotice (o : SwitchOccasion) (s : State) : State :=
  notice 0x0A (word32 s.now ++ be8 0 ++ word16 s.banks.generation ++ be8 (switchCode o)) s

/-- The BANK notice with event DROPPED (R59, R62). -/
def droppedNotice (s : State) : State :=
  notice 0x0A (word32 s.now ++ be8 1 ++ word16 s.banks.generation) s

/-- The copy of items 2 and 3 of R57. -/
def copyShadow (s : State) : State :=
  { s with working := s.shadow,
           banks := { s.banks with valid := true, generation := s.banks.generation + 1,
                                   switchPending := false, modified := false },
           rollers := { s.rollers with sides :=
             { left := forgetTest s.rollers.sides.left, right := forgetTest s.rollers.sides.right } } }

/-- A switch applied (R57); `answer` offers the DONE reply of a BANK_SWITCH request, when it is one. -/
def applySwitch (o : SwitchOccasion) (answer : State → State) (s : State) : State :=
  appliedNotice o (answer (clearStales (copyShadow (clearConditioner s))))

/-- A pending switch applied at a discard or a lane reset (R60, R61). -/
def applyPending (o : SwitchOccasion) (s : State) : State :=
  if s.banks.switchPending then applySwitch o id s else s

end Sys2Proof.Machine
end

