-- ==== Sys2Proof/Machine/Rollers.lean ====
section
/-! DEFINITION. The Roller Supervisor (06): judging, holding and offering a START (R108 to R110),
stopping a side (R112), spin-up, standstill and slip at a tick close of A (R114 to R116), lock (R117,
R118), and the wheel revolution accumulator (R122 to R124). What it reports to the other blocks is a
list of reports, taken by them in order. -/

namespace Sys2Proof.Machine

/-- A report of the supervisor to the Step Engine and the Lane Controller (R93, R110, R112, R115). -/
inductive Report where
  | standstill (sd : Side)
  | refused (sd : Side)
  | spinUpOk (sd : Side)
  | spinUpNg (sd : Side)
  | leftRunning (sd : Side)
deriving DecidableEq, Repr

/-! ### Sides -/

/-- The watch off, and with it the marking of windows (R117, R124). -/
def RollerSide.watchOff (r : RollerSide) : RollerSide := { r with watch := none, window := 0 }

/-- A side at rest or running down after a STOP; the spin-up check has ended (log entry 29). -/
def RollerSide.stopAs (r : RollerSide) (st : RollerState) : RollerSide :=
  { r with state := st, sendTime := none, watch := none, window := 0 }

/-- A held START taken out of its slot and the side put in a state. -/
def RollerSide.unheld (r : RollerSide) (st : RollerState) : RollerSide :=
  { r with state := st, held := none, testDue := false }

/-- Both watches off. -/
def watchesOff (s : State) : State :=
  { s with rollers := { s.rollers with sides :=
      { left := s.rollers.sides.left.watchOff, right := s.rollers.sides.right.watchOff } } }

/-- A held START cancelled with its POLICY notice, the side going to a state (R110, R119). -/
def cancelHeld (sd : Side) (why : PolicyReason) (st : RollerState) (s : State) : State :=
  let r := s.roller sd
  policyNotice sd (r.held.elim .station (·.origin)) .cancelled (some why) (s.setRoller sd (r.unheld st))

/-! ### Starting a side (R108 to R110) -/

/-- A START offered to the drive cabinet (R109). -/
def offerStart (o : Origin) (sd : Side) (s : State) : State × List Report :=
  let r := offer .head (startFrame ((cabinetNode s).getD 0) sd)
    (s.setRoller sd { (s.roller sd).unheld .spinningUp with outstanding := true, sendTime := none })
  if r.2 then (r.1, [])
  else
    let t := r.1.setRoller sd { (r.1.roller sd).unheld .stopped with outstanding := false, sendTime := none }
    (if o == .station then policyNotice sd o .refused (some .queueFull) t else t, [.refused sd])

/-- The first check of R108 that a START fails. -/
def refusal (o : Origin) (sd : Side) (s : State) : Option PolicyReason :=
  if s.rollers.estop then some .estop
  else if o == .station && !interlockOpen s then some .interlock
  else if (s.roller sd).overtemp then some .overtemperature
  else match (s.roller sd).state with
    | .held => some .alreadyHeld
    | .spinningUp | .running | .coasting => some .notStopped
    | .stopped => none

/-- A START judged: refused, offered or held (R108). -/
def judgeStart (o : Origin) (sd : Side) (s : State) : State × List Report :=
  match refusal o sd s with
  | some why =>
    if o == .station then (policyNotice sd o .refused (some why) s, []) else (s, [.refused sd])
  | none =>
    if permitted s sd then offerStart o sd s
    else
      (policyNotice sd o .held (some .startRules)
        (s.setRoller sd { s.roller sd with state := .held, held := some { origin := o, since := s.now },
                                           testDue := false }), [])

/-- A held START tested at a lane millisecond (R110). The RELEASED notice goes to the other port than the
START, so their order shows only where the START is then refused (log entry 26). -/
def testHeld (sd : Side) (s : State) : State × List Report :=
  let r := s.roller sd
  match r.held with
  | none => (s, [])
  | some h =>
    let s1 := s.setRoller sd { r with testDue := false }
    if !permitted s sd then (s1, [])
    else if originHolds s h.origin then offerStart h.origin sd (policyNotice sd h.origin .released none s1)
    else (cancelHeld sd .interlock .stopped s1, [.standstill sd])

/-! ### Stopping a side (R112, R113) -/

/-- A STOP offered for a side that is SPINNING_UP: STOPPED when it removed the START, else COASTING. -/
def stopSpinUp (sd : Side) (s : State) : State × Bool :=
  let r := offerStop sd s
  (r.1.setRoller sd ((r.1.roller sd).stopAs (if r.2 then .stopped else .coasting)), r.2)

/-- A STOP offered for a side that is RUNNING. -/
def stopRunning (sd : Side) (s : State) : State :=
  let t := (offerStop sd s).1
  t.setRoller sd ((t.roller sd).stopAs .coasting)

/-- A stop request of the lane for one side (R112). -/
def laneStop (sd : Side) (s : State) : State × List Report :=
  match (s.roller sd).state with
  | .stopped => (s, [])
  | .held => (cancelHeld sd .lane .stopped s, [.standstill sd])
  | .spinningUp =>
    let r := stopSpinUp sd s
    (r.1, if r.2 then [.standstill sd] else [])
  | .running => (stopRunning sd s, [])
  | .coasting => ((offerStop sd s).1, [])

/-- The lane's stop request for every side, L before R (R113), and so the POLICY notices of two cancelled
STARTs (the model's choice, log entry 49). STOPs of successive rules in one event come as their rules do (log
entry 58). -/
def laneStopBoth (s : State) : State × List Report :=
  let l := laneStop .left s
  let r := laneStop .right l.1
  (r.1, l.2 ++ r.2)

/-- A station STOP for a side (R112). It comes before the STOPs that its reports bring, whichever the side (the
model's choice, log entry 58). -/
def stationStop (sd : Side) (s : State) : State × List Report :=
  match (s.roller sd).state with
  | .stopped | .coasting => ((offerStop sd s).1, [])
  | .held => (cancelHeld sd .stop .stopped (offerStop sd s).1, [.refused sd, .standstill sd])
  | .spinningUp =>
    let r := stopSpinUp sd s
    (r.1, .spinUpNg sd :: if r.2 then [.standstill sd] else [])
  | .running => (stopRunning sd s, [.leftRunning sd])

/-! ### The drive cabinet's flags (R119 to R121) -/

/-- A side at an emergency stop, after its STOP was offered (R120). -/
def estopSide (sd : Side) (removed : Bool) (s : State) : State :=
  match (s.roller sd).state with
  | .held => cancelHeld sd .estop .stopped (s.setRoller sd (s.roller sd).watchOff)
  | .spinningUp => s.setRoller sd ((s.roller sd).stopAs (if removed then .stopped else .coasting))
  | .running => s.setRoller sd ((s.roller sd).stopAs .coasting)
  | .stopped | .coasting => s.setRoller sd (s.roller sd).watchOff

/-- What the supervisor does when the emergency-stop flag becomes set: STOP L, STOP R, then the sides
(R120), L before R (the model's choice for their POLICY notices, log entry 49). -/
def estopRollers (s : State) : State :=
  let l := offerStop .left { s with rollers := { s.rollers with estop := true } }
  let r := offerStop .right l.1
  estopSide .right r.2 (estopSide .left l.2 r.1)

/-- A held START that remains after the Lane Controller was told of the side's overtemperature (R121). -/
def overtempHeld (sd : Side) (s : State) : State × List Report :=
  if (s.roller sd).state == .held then
    (cancelHeld sd .overtemperature .stopped s, [.refused sd, .standstill sd])
  else (s, [])

/-- A contactor state reported for a side (R119); an uncommanded run's STOP comes before those that the end of the
step, told of a refused held START, asks for (the model's choice, log entry 58). -/
def contactor (sd : Side) (on : Bool) (s : State) : State × List Report :=
  let s0 := s.setRoller sd { s.roller sd with contactor := on }
  let r := s0.roller sd
  if on && (r.state == .stopped || r.state == .held) && !r.outstanding then
    let t := (offerStop sd s0).1
    let u := if r.state == .held then cancelHeld sd .contactor .coasting t
      else t.setRoller sd { t.roller sd with state := .coasting }
    (policyNotice sd .supervisor .uncommanded (some .contactor) u,
      if r.state == .held then [.refused sd] else [])
  else (s0, [])

/-! ### The tick close of A (R114 to R118, R123, R124) -/

/-- What the supervisor hands on about a side with a tick close of A: a lock (R118), the window and
whether the close ends it (R124), and a carry (R123). -/
structure SideTrace where
  lock : Bool
  window : Option (Nat × Bool)
  carry : Bool
deriving DecidableEq, Repr

/-- Nothing to hand on. -/
def SideTrace.none : SideTrace := { lock := false, window := Option.none, carry := false }

/-- The two conditions of the spin-up check (R114). -/
def spunUp (sd : Side) (s : State) : Bool :=
  match value s (driveSpeed sd), value s (followSpeed sd) with
  | some d, some f =>
    decide ((settings s).minDriveSpeed ≤ d) && decide ((d * (settings s).spinUpFraction).tdiv 1000 ≤ f)
  | _, _ => false

/-- The three conditions of standstill (R115). -/
def standsStill (sd : Side) (s : State) : Bool :=
  let slow := match mapped s (driveSpeed sd), value s (driveSpeed sd) with
    | none, _ => true
    | some _, some d => decide (d < (settings s).standstillSpeed)
    | some _, none => false
  slow && !(s.roller sd).contactor && !(s.roller sd).outstanding

/-- The slip of a RUNNING side after a close (R116). -/
def newSlip (sd : Side) (s : State) : Int :=
  match value s (driveSpeed sd), value s (followSpeed sd) with
  | some d, some f =>
    if (settings s).minDriveSpeed ≤ d then clampTo 0 1000 (((d - f) * 1000).tdiv d) else (s.roller sd).slip
  | _, _ => (s.roller sd).slip

/-- The watch of a side after a close at which its slip is known (R117). -/
def newWatch (sd : Side) (s : State) (slip : Int) (w : Watch) : Watch :=
  let engaged := w.engaged || (value s (brakeForce sd)).any fun f => decide ((limits s).engageForce ≤ f)
  { engaged, count := if engaged && decide ((limits s).lockSlip ≤ slip) then w.count + 1 else 0 }

/-- The increment K of a HOLD step (R122). -/
def incrementK (s : State) : Nat :=
  let cf := (settings s).followerCircumference.getD 1
  let nf := (settings s).pulsesPerRev.getD 1
  let cw := (limits s).wheelCircumference
  (2 ^ 33 * cf + cw * nf) / (2 * (cw * nf))

/-- The pulses times K that a close adds (R123). -/
def pulseSum (sd : Side) (s : State) : Nat :=
  (s.roller sd).acc.toNat + ((value s (followPulses sd)).getD 0).toNat * (s.roller sd).increment

/-- The accumulator and window of a side watched in HOLD, after a close without a lock (R123, R124). -/
def accumulate (sd : Side) (s : State) : State × SideTrace :=
  let r := s.roller sd
  let sum := pulseSum sd s
  let carry := decide (2 ^ 32 ≤ sum)
  (s.setRoller sd { r with acc := BitVec.ofNat 32 sum,
                           window := if carry then min (r.window + 1) 255 else r.window },
    { lock := false, window := some (r.window, carry), carry })

/-- A RUNNING side at a tick close of A: slip, watch and lock, accumulator (R116 to R118, R123). The lock is
tested first, and the close that confirms it adds no pulses (the model's choice, log entry 54). -/
def runningClose (sd : Side) (s : State) : State × SideTrace :=
  let slip := newSlip sd s
  let s1 := s.setRoller sd { s.roller sd with slip }
  match (s1.roller sd).watch with
  | none => (s1, SideTrace.none)
  | some w =>
    let w' := newWatch sd s1 slip w
    if (limits s1).lockConfirm ≤ w'.count then
      (stopRunning sd s1, { SideTrace.none with lock := true })
    else
      let s2 := s1.setRoller sd { s1.roller sd with watch := some w' }
      if runningKind s2 .hold && (s2.roller sd).window != 0 then accumulate sd s2 else (s2, SideTrace.none)

/-- One side at a tick close of A, judged by its state at the close's start (log entry 29). -/
def sideClose (sd : Side) (s : State) : State × List Report × SideTrace :=
  let r := s.roller sd
  match r.state with
  | .stopped | .held => (s, [], SideTrace.none)
  | .spinningUp =>
    match r.sendTime with
    | none => (s, [], SideTrace.none)
    | some t =>
      if elapsedSince s.now t < (settings s).spinUpWindow ∧ spunUp sd s then
        (s.setRoller sd { r with state := .running, sendTime := none, slip := 0 }, [.spinUpOk sd],
          SideTrace.none)
      else (s, [], SideTrace.none)
  | .coasting =>
    if standsStill sd s then
      (s.setRoller sd { r with state := .stopped }, [.standstill sd], SideTrace.none)
    else (s, [], SideTrace.none)
  | .running =>
    let c := runningClose sd s
    (c.1, [], c.2)

/-- The spin-up window runs out (R114). Its STOP comes before those that the end of the step asks for, whichever the
side (the model's choice, log entry 58). -/
def spinUpExpiry (sd : Side) (s : State) : State × List Report :=
  let r := stopSpinUp sd s
  (r.1.setRoller sd { r.1.roller sd with state := .coasting }, [.spinUpNg sd])

/-! ### Sends of a START (R107, R109) -/

/-- The completion of a START's send (R109). -/
def startSent (sd : Side) (s : State) : State :=
  let r := s.roller sd
  s.setRoller sd { r with
    outstanding := false, history := ({ time := s.now, aged := false } :: r.history).take 4,
    sendTime := if r.state == .spinningUp then some s.now else r.sendTime }

end Sys2Proof.Machine
end

