-- ==== Sys2Proof/Machine/Evaluator.lean ====
section
/-! DEFINITION. The Brake Evaluator (07): loads (R126, R127), force (R128 to R135), imbalance (R136),
ovality (R137, R138), the axle result notice (R139), and the vehicle's evaluation (R140 to R146). -/

namespace Sys2Proof.Machine

/-- The state with a side of the Evaluator replaced. -/
def State.setEval (s : State) (sd : Side) (x : EvalSide) : State :=
  { s with eval := { s.eval with sides := s.eval.sides.set sd x } }

/-- The Evaluator's measurement dropped: activity and per-side values at their reset values (R125). -/
def resetEval (s : State) : State := { s with eval := Evaluator.reset }

/-! ### Begins (R126, R128, R137) -/

/-- A side begun in a measuring step (R128, R137). -/
def beginSide (activity : Activity) (measured : Bool) : EvalSide :=
  if !measured then EvalSide.reset
  else { EvalSide.reset with phase := if activity == .hold then .engaged else .waitingEngage }

/-- The begin of WEIGH (R126). -/
def beginWeigh (s : State) : State := { s with eval := { Evaluator.reset with activity := .settling } }

/-- The begin of SERVICE, HOLD or PARK over the sides that are MEASURING (R128, R137). -/
def beginMeasure (activity : Activity) (s : State) : State :=
  let m := s.engine.marks
  { s with eval := { Evaluator.reset with
      activity, sides := { left := beginSide activity (m.left == .measuring),
                           right := beginSide activity (m.right == .measuring) } } }

/-! ### Loads (R126, R127) -/

/-- A window slid on by a value (R126). -/
def slide (count : Nat) (w : List (Int × Bool)) (x : Int × Bool) : List (Int × Bool) :=
  let w' := w ++ [x]
  w'.drop (w'.length - count)

/-- The largest of a list's values, and the least. -/
def largest : List Int → Int
  | [] => 0
  | [x] => x
  | x :: y :: rest => max x (largest (y :: rest))
/-- The least of a list's values. -/
def least : List Int → Int
  | [] => 0
  | [x] => x
  | x :: y :: rest => min x (least (y :: rest))

/-- A full window whose spread is within the stability spread (R126). -/
def steady (s : State) (w : List (Int × Bool)) : Bool :=
  w.length == (settings s).settleCount &&
    decide (largest (w.map (·.1)) - least (w.map (·.1)) ≤ (settings s).stabilitySpread)

/-- The Evaluator's work of WEIGH at a tick close of B; the flag tells that the loads settled (R126). -/
def settleClose (s : State) : State × Bool :=
  match value s .wheelLoadL, value s .wheelLoadR with
  | some l, some r =>
    let n := (settings s).settleCount
    let wl := slide n s.eval.loads.left (l, deliveredStale s .wheelLoadL)
    let wr := slide n s.eval.loads.right (r, deliveredStale s .wheelLoadR)
    ({ s with eval := { s.eval with loads := { left := wl, right := wr } } }, steady s wl && steady s wr)
  | _, _ => ({ s with eval := { s.eval with loads := { left := [], right := [] } } }, false)

/-- A side's load from its window (R127). -/
def meanLoad (w : List (Int × Bool)) : Load :=
  { value := clampTo 0 100000 ((w.map Prod.fst).sum.tdiv w.length), stale := w.any (·.2) }

/-! ### Force (R128 to R134) -/

/-- Whether a quantity the side uses was delivered STALE (R134, R137). -/
def sideStale (s : State) (sd : Side) : Bool :=
  deliveredStale s (brakeForce sd) || deliveredStale s (driveSpeed sd) || deliveredStale s (followSpeed sd)
    || (s.eval.activity == .hold && deliveredStale s (followPulses sd))

/-- A side that is being measured. -/
def EvalSide.active (x : EvalSide) : Bool := x.phase == .waitingEngage || x.phase == .engaged

/-- A side ended (R130, R131, R133, R138). -/
def EvalSide.endAs (x : EvalSide) (e : Ending) : EvalSide := { x with phase := .ended, ending := e }

/-- The side engaged by a force at least the engage force (R129). -/
def engage (lim : ClassLimits) (f : Option Int) (x : EvalSide) : EvalSide :=
  if x.phase == .waitingEngage && f.any (fun v => decide (lim.engageForce ≤ v)) then
    { x with phase := .engaged }
  else x

/-- The peak and the pedal at peak after a close (R132). -/
def follow (service : Bool) (f pedal : Option Int) (x : EvalSide) : EvalSide :=
  match f with
  | none => x
  | some v =>
    if x.peak.all (fun p => decide (p < v)) then { x with peak := some v, pedal := if service then pedal else none }
    else x

/-- The release test of a close (R130). -/
def release (lim : ClassLimits) (f : Option Int) (x : EvalSide) : EvalSide :=
  let n := if f.any (fun v => decide (v < lim.releaseForce)) then x.release + 1 else 0
  let y := { x with release := n }
  if lim.releaseConfirm ≤ n then y.endAs .released else y

/-- One side of a force measurement at a tick close of A, with the supervisor's report in hand (R129 to R132). -/
def forceSide (lim : ClassLimits) (service lock : Bool) (f pedal : Option Int) (x : EvalSide) : EvalSide :=
  let y := engage lim f x
  if y.phase == .engaged then
    let z := follow service f pedal y
    if lock then z.endAs .locked else release lim f z
  else y

/-! ### Imbalance (R136) -/

/-- The candidate of two forces of a paired close, when it counts (R136). -/
def candidate (lim : ClassLimits) (f g : Int) : Option Int :=
  let a := max f g
  let b := min f g
  if lim.imbalanceFloor ≤ a then some (clampTo 0 1000 (((a - b) * 1000).tdiv a)) else none

/-- The larger of two values that may be absent. -/
def maxOpt : Option Int → Option Int → Option Int
  | some x, some y => some (max x y)
  | some x, none => some x
  | none, y => y

/-- A side that a close finds not ended and leaves engaged or ended. -/
def pairedSide (before after : EvalSide) : Bool :=
  before.active && (after.phase == .engaged || after.phase == .ended)

/-! ### Ovality (R137, R138) -/

/-- A force value in the extremes of the open window (R137). -/
def widen (f : Option Int) (x : Option (Int × Int)) : Option (Int × Int) :=
  match f, x with
  | none, _ => x
  | some v, none => some (v, v)
  | some v, some (hi, lo) => some (max hi v, min lo v)

/-- A window judged at the close that ends it (R138). -/
def judgeWindow (lim : ClassLimits) (number : Nat) (x : EvalSide) : EvalSide :=
  match x.extremes with
  | none => x
  | some (hi, lo) =>
    if number ≤ 1 ∨ hi < lim.ovalityFloor then x
    else
      { x with windows := x.windows + 1,
               ovality := maxOpt x.ovality (some (clampTo 0 1000 (((hi - lo) * 1000).tdiv hi))) }

/-- One side of a HOLD step at a tick close of A (R137, R138). The close that locks it leaves its extremes as they were
(the model's choice, log entry 64). -/
def holdSide (lim : ClassLimits) (t : SideTrace) (f : Option Int) (x : EvalSide) : EvalSide :=
  if t.lock then x.endAs .locked
  else
    let y := { x with extremes := widen f x.extremes }
    match t.window with
    | some (number, true) =>
      let z := { judgeWindow lim number y with extremes := none }
      if lim.ovalityWindows ≤ z.windows then z.endAs .windows else z
    | _ => y

/-- One side at a tick close of A. -/
def evalSide (sd : Side) (t : SideTrace) (s : State) : EvalSide :=
  let x := s.eval.sides.get sd
  if !x.active then x
  else
    let y := { x with stale := x.stale || sideStale s sd }
    let f := value s (brakeForce sd)
    if s.eval.activity == .hold then holdSide (limits s) t f y
    else forceSide (limits s) (runningKind s .service) t.lock f (value s .pedalForce) y

/-- A side's watch set off when the Evaluator reports it ended (R117). -/
def reportEnded (sd : Side) (s : State) : State :=
  if (s.eval.sides.get sd).phase == .ended then s.setRoller sd (s.roller sd).watchOff else s

/-- The Evaluator's work of SERVICE, PARK and HOLD at a tick close of A (R128 to R138). -/
def measureClose (traces : Pair SideTrace) (s : State) : State :=
  let l := evalSide .left traces.left s
  let r := evalSide .right traces.right s
  let before := s.eval.sides
  let imb :=
    if runningKind s .service && pairedSide before.left l && pairedSide before.right r then
      match value s .brakeForceL, value s .brakeForceR with
      | some f, some g => maxOpt s.eval.imbalance (candidate (limits s) f g)
      | _, _ => s.eval.imbalance
    else s.eval.imbalance
  reportEnded .right (reportEnded .left
    { s with eval := { s.eval with sides := { left := l, right := r }, imbalance := imb } })

/-- A side that leaves RUNNING by a station STOP (R133). -/
def endStopped (sd : Side) (s : State) : State :=
  let x := s.eval.sides.get sd
  if x.active then s.setEval sd (x.endAs .stopped) else s

/-- The sides not yet ended closed at a timeout (R133). -/
def closeSides (s : State) : State :=
  let f (x : EvalSide) : EvalSide := if x.active then x.endAs .timedOut else x
  { s with eval := { s.eval with sides := { left := f s.eval.sides.left, right := f s.eval.sides.right } } }

/-- Every MEASURING side has ended (R94). -/
def sidesEnded (s : State) : Bool := !s.eval.sides.left.active && !s.eval.sides.right.active

/-! ### Writing results (R127, R135, R138, R139) -/

/-- The open vehicle's record with one axle entry changed (R160). -/
def State.setAxle (s : State) (axle : Nat) (f : AxleEntry → AxleEntry) : State :=
  { s with vehicle := s.vehicle.map fun v => { v with axles := v.axles.modify (axle - 1) f } }

/-- The results a step writes, as an AXLE_RESULT notice carries them (R139). -/
inductive Written where
  | loads (p : Pair Load)
  | service (p : Pair (Option ServiceSide)) (imbalance : Option Int)
  | hold (p : Pair (Option HoldSide))
  | park (p : Pair (Option ParkSide))
deriving DecidableEq, Repr

/-- A MEASURING side's service result (R135). -/
def serviceOf (x : EvalSide) : ServiceSide :=
  { peak := x.peak, ending := x.ending, pedal := x.pedal, stale := x.stale }
/-- A MEASURING side's park result (R135). -/
def parkOf (x : EvalSide) : ParkSide := { peak := x.peak, ending := x.ending, stale := x.stale }
/-- A MEASURING side's hold result: ovality only with the windows required (R138). -/
def holdOf (lim : ClassLimits) (x : EvalSide) : HoldSide :=
  { ovality := if lim.ovalityWindows ≤ x.windows then x.ovality else none, ending := x.ending,
    windows := x.windows, stale := x.stale }

/-- The results of the MEASURING sides. -/
def measured {α : Type} (s : State) (f : EvalSide → α) : Pair (Option α) :=
  { left := if s.engine.marks.left == .measuring then some (f s.eval.sides.left) else none,
    right := if s.engine.marks.right == .measuring then some (f s.eval.sides.right) else none }

/-- What the current step writes at its end, if anything (R91, R135, R138). -/
def results (completed : Bool) (s : State) : Option Written :=
  let some_ := s.engine.marks.left == .measuring || s.engine.marks.right == .measuring
  match currentKind s with
  | some .weigh =>
    if completed then some (.loads { left := meanLoad s.eval.loads.left, right := meanLoad s.eval.loads.right })
    else none
  | some .service => if some_ then some (.service (measured s serviceOf) s.eval.imbalance) else none
  | some .hold => if some_ then some (.hold (measured s (holdOf (limits s)))) else none
  | some .park => if some_ then some (.park (measured s parkOf)) else none
  | _ => none

/-- A side's new result over the one held (R160). -/
def overlay {α : Type} (new old : Pair (Option α)) : Pair (Option α) :=
  { left := new.left.or old.left, right := new.right.or old.right }

/-- Results written into an axle entry (R135, R138, R160). -/
def writeEntry (w : Written) (e : AxleEntry) : AxleEntry :=
  match w with
  | .loads p => { e with loads := some p }
  | .service p i => { e with service := overlay p e.service, imbalance := i }
  | .hold p => { e with hold := overlay p e.hold }
  | .park p => { e with park := overlay p e.park }

/-- A side of an AXLE_RESULT: a flag byte, then the fields of a side that ran (R185). -/
def sideFields {α : Type} (enc : α → List Byte) : Option α → List Byte
  | none => [1]
  | some x => 0 :: enc x

/-- The AXLE_RESULT notice (R139). -/
def axleResultNotice (axle attempt : Nat) (w : Written) (s : State) : State :=
  let opt3 := optional signed24
  let load (x : Load) := signed24 x.value ++ flagByte x.stale
  let service (x : ServiceSide) := opt3 x.peak ++ be8 (endingCode x.ending) ++ opt3 x.pedal ++ flagByte x.stale
  let hold (x : HoldSide) :=
    optional signed16 x.ovality ++ be8 (endingCode x.ending) ++ be8 x.windows ++ flagByte x.stale
  let park (x : ParkSide) := opt3 x.peak ++ be8 (endingCode x.ending) ++ flagByte x.stale
  let body : List Byte := match w with
    | .loads p => be8 0 ++ be8 attempt ++ sideFields load (some p.left) ++ sideFields load (some p.right)
    | .service p i => be8 1 ++ be8 attempt ++ sideFields service p.left ++ sideFields service p.right
        ++ optional signed16 i
    | .hold p => be8 2 ++ be8 attempt ++ sideFields hold p.left ++ sideFields hold p.right
    | .park p => be8 3 ++ be8 attempt ++ sideFields park p.left ++ sideFields park p.right
  notice 0x04 (word32 s.now ++ be8 axle ++ body) s

/-! ### Evaluating the vehicle (R140 to R146) -/

/-- The sum of a list of values, absent when one of them is. -/
def sumAll : List (Option Int) → Option Int
  | [] => some 0
  | none :: _ => none
  | some x :: rest => (sumAll rest).map (x + ·)

/-- A side's service peak (R135). -/
def servicePeak (p : Pair (Option ServiceSide)) (sd : Side) : Option Int := (p.get sd).bind (·.peak)
/-- A side's park peak (R135). -/
def parkPeak (p : Pair (Option ParkSide)) (sd : Side) : Option Int := (p.get sd).bind (·.peak)

/-- The sum of every load (R141). -/
def loadSum (v : VehicleRecord) : Option Int :=
  sumAll (v.axles.map fun e => e.loads.map fun p => p.left.value + p.right.value)

/-- A ratio of two sums (R141, R142). -/
def ratio (f w : Option Int) : Option Int :=
  match f, w with
  | some f, some w => if w = 0 then none else some (min ((f * 1000).tdiv w) 9999)
  | _, _ => none

/-- The service ratio (R141). -/
def serviceRatio (v : VehicleRecord) : Option Int :=
  ratio (sumAll (v.axles.flatMap fun e => [servicePeak e.service .left, servicePeak e.service .right])) (loadSum v)

/-- The axle entries of the park-axle set. -/
def parkAxles (v : VehicleRecord) : List AxleEntry := v.park.filterMap fun a => v.axles[a - 1]?

/-- The park ratio (R142). -/
def parkRatio (v : VehicleRecord) : Option Int :=
  if v.park.isEmpty then none
  else ratio (sumAll ((parkAxles v).flatMap fun e => [parkPeak e.park .left, parkPeak e.park .right])) (loadSum v)

/-- Lock credit (R144). -/
def lockCredit (v : VehicleRecord) : Bool :=
  (serviceRatio v).isSome && v.axles.all fun e =>
    e.service.left.any (·.ending == .locked) && e.service.right.any (·.ending == .locked)

/-- A verdict of an applicable item from its value (R144). -/
def verdict (applicable : Bool) (x : Option Int) (pass : Int → Bool) : Verdict :=
  if !applicable then .notApplicable
  else match x with
    | none => .notEvaluated
    | some v => if pass v then .pass else .fail

/-- The values and verdicts of one axle (R143, R144). -/
def axleResults (lim : ClassLimits) (sec : List PlanStep) (plate : Bool) (v : VehicleRecord) (i : Nat)
    (e : AxleEntry) : AxleResults :=
  let has (k : StepKind) := sec.any fun p => p.kind == k && runnable v.park i p
  let service := has .service
  let hold := has .hold
  let oval (sd : Side) := (e.hold.get sd).bind (·.ovality)
  let small (m : Int) (x : Int) := decide (x ≤ m)
  let slip := e.plate.bind (·.value)
  { imbalance := if service then e.imbalance else none,
    imbalanceVerdict := verdict service e.imbalance (small lim.imbalanceMax),
    ovality := if hold then { left := oval .left, right := oval .right } else { left := none, right := none },
    ovalityVerdict := { left := verdict hold (oval .left) (small lim.ovalityMax),
                        right := verdict hold (oval .right) (small lim.ovalityMax) },
    plate := if plate then e.plate else none,
    sideSlipVerdict := verdict plate slip fun x => decide ((x.natAbs : Int) ≤ lim.sideSlipMax) }

/-- The verdicts of an axle's four items. -/
def axleVerdicts (a : AxleResults) : List Verdict :=
  [a.imbalanceVerdict, a.ovalityVerdict.left, a.ovalityVerdict.right, a.sideSlipVerdict]

/-- Every verdict of the vehicle results. -/
def verdictsOf (r : VehicleResults) : List Verdict :=
  r.serviceVerdict :: r.parkVerdict :: r.axles.flatMap axleVerdicts

/-- The overall verdict (R145). -/
def overallOf (verdicts : List Verdict) (aborted : Bool) : Overall :=
  if verdicts.contains .fail then .fail
  else if verdicts.contains .notEvaluated || aborted then .incomplete
  else .pass

/-- The vehicle results (R140 to R145), for a plan's axle section. -/
def evaluate (lim : ClassLimits) (sec : List PlanStep) (plate : Bool) (v : VehicleRecord) : VehicleResults :=
  let hasService := sec.any fun p => p.kind == .service
  let hasPark := !v.park.isEmpty && sec.any fun p => p.kind == .park
  let credit := lockCredit v && hasService
  let service := if hasService then serviceRatio v else none
  let park := if hasPark then parkRatio v else none
  let sv := verdict hasService service fun x => decide (lim.serviceMin ≤ x) || credit
  let pv := verdict hasPark park fun x => decide (lim.parkMin ≤ x)
  let axles := v.axles.mapIdx fun i e => axleResults lim sec plate v (i + 1) e
  { service, serviceVerdict := sv, lockCredit := credit, park, parkVerdict := pv, axles,
    overall := overallOf (sv :: pv :: axles.flatMap axleVerdicts) v.aborted }

/-- The number of items with a verdict. -/
def countVerdicts (r : VehicleResults) (v : Verdict) : Nat := ((verdictsOf r).filter (· == v)).length

/-- The VEHICLE_RESULT notice (R146). -/
def vehicleResultNotice (aborted : Bool) (r : VehicleResults) (s : State) : State :=
  notice 0x05 (word32 s.now ++ flagByte aborted ++ optional signed16 r.service
    ++ be8 (verdictCode r.serviceVerdict) ++ flagByte r.lockCredit ++ optional signed16 r.park
    ++ be8 (verdictCode r.parkVerdict) ++ be8 (countVerdicts r .pass) ++ be8 (countVerdicts r .fail)
    ++ be8 (countVerdicts r .notEvaluated) ++ be8 (overallCode r.overall)) s

/-- The evaluation at FINISH's begin (R96, R140, R146). -/
def evaluateVehicle (s : State) : State :=
  match s.vehicle with
  | none => s
  | some v =>
    let r := evaluate (limits s) (axleSection s.working (s.engine.plan.getD 0)) (hasPlateHead s) v
    vehicleResultNotice v.aborted r { s with vehicle := some { v with results := some r } }

end Sys2Proof.Machine
end

