-- ==== Sys2Proof/Machine/Plate.lean ====
section
/-! DEFINITION. The Plate Unit (08): detection (R148, R149), the open crossing (R150), its figures and
outcome (R151, R152), and its attribution (R153 to R156). -/

namespace Sys2Proof.Machine

/-- Plate detection switched on (R148). -/
def plateOn (s : State) : State :=
  let seenFree := value s .plateOccupied == some 0
  { s with plate := { s.plate with detection := if seenFree then .clear else .waitClear } }

/-- The values of an occupied close. -/
def platePoint (s : State) : PlatePoint :=
  { time := s.now, lateral := value s .plateLateral, travel := value s .plateTravel }

/-- Any plate quantity was delivered STALE. -/
def plateStale (s : State) : Bool :=
  deliveredStale s .plateOccupied || deliveredStale s .plateTravel || deliveredStale s .plateLateral

/-- The figures of a closed crossing (R151, R152): d, s, t and v, and the outcome with its value and
clamped mark. -/
structure Crossing where
  d : Option Int
  s : Option Int
  t : Nat
  v : Option Int
  outcome : PlateOutcome
  value : Option Int
  clamped : Bool
deriving DecidableEq, Repr

/-- The speed of a crossing (R152). -/
def crossingSpeed (s : Int) (t : Nat) : Int := (s * 1000).tdiv t

/-- The outcome of a crossing's figures, its reversed mark given (R152). -/
def judgeCrossing (x : LaneSettings) (reversed : Bool) (d s : Option Int) (t : Nat) : Crossing :=
  let out (v : Option Int) (o : PlateOutcome) : Crossing :=
    { d, s, t, v, outcome := o, value := none, clamped := false }
  if reversed || s.any (fun z => decide (z ≤ 0)) then out none .reverse
  else
    match d, s with
    | some dd, some ss =>
      let v := crossingSpeed ss t
      if ss < x.plateMinTravel then out none .invalidShort
      else if v < x.speedLow ∨ x.speedHigh < v then out (some v) .invalidSpeed
      else
        let q := (dd * 100).tdiv ss
        let w := clampTo (-9999) 9999 q
        { out (some v) .valid with value := some w, clamped := w != q }
    | _, _ => out none .invalidData

/-- The figures of the open crossing (R151). -/
def crossingOf (x : LaneSettings) (u : PlateUnit) : Crossing :=
  let d := match u.start, u.last with
    | some a, some b => b.lateral.bind fun l => a.lateral.map fun k => l - k
    | _, _ => none
  let dt := match u.start, u.last with
    | some a, some b => elapsedSince b.time a.time
    | _, _ => 0
  judgeCrossing x u.reversed d (u.last.bind (·.travel)) (if dt = 0 then 1 else dt)

/-- The PLATE_RESULT notice (R156). -/
def plateResultNotice (number : Nat) (axle : Option Nat) (c : Crossing) (stale : Bool) (s : State) : State :=
  notice 0x07 (word32 s.now ++ be8 number ++ optional be8 axle ++ be8 (plateCode c.outcome)
    ++ optional signed16 c.value ++ flagByte c.clamped ++ optional signed24 c.d ++ optional signed24 c.s
    ++ optional be32 (some c.t) ++ optional signed24 c.v ++ flagByte stale) s

/-- The EXTRA_AXLE notice (R155; log entry 18). -/
def extraAxleNotice (number extra : Nat) (c : Crossing) (s : State) : State :=
  notice 0x08 (word32 s.now ++ be8 number ++ be8 extra ++ be8 (plateCode c.outcome)
    ++ optional signed16 c.value ++ optional signed24 c.d ++ optional signed24 c.s
    ++ optional be32 (some c.t) ++ optional signed24 c.v) s

/-- A consuming crossing attributed to the next axle (R154); the flag tells that it consumed one. -/
def attributeCrossing (number : Nat) (c : Crossing) (stale : Bool) (v : VehicleRecord) (s : State) : State × Bool :=
  if s.plate.axleCount < v.n then
    let k := s.plate.axleCount + 1
    let r : PlateResult := { outcome := c.outcome, value := c.value, clamped := c.clamped, stale }
    let t := { s with plate := { s.plate with axleCount := k } }
    (plateResultNotice number (some k) c stale (t.setAxle k fun e => { e with plate := some r }), true)
  else
    let extra := min (v.extra + 1) 255
    (extraAxleNotice number extra c { s with vehicle := some { v with extra } }, false)

/-- A crossing closed (R151 to R155); the flag tells that it consumed an axle. Its start, last occupied close
and marks are none and clear afterwards (the model's choice, log entry 51). -/
def closeCrossing (s : State) : State × Bool :=
  let stale := s.plate.stale || plateStale s
  let number := min (s.plate.crossing + 1) 255
  let c := crossingOf (settings s) s.plate
  let t := { s with plate := { s.plate with detection := .clear, start := none, last := none,
                                            reversed := false, stale := false, crossing := number } }
  match c.outcome, s.vehicle with
  | .reverse, _ =>
    (plateResultNotice number none c stale (t.count fun k => { k with reverse := k.reverse + 1 }), false)
  | _, some v => attributeCrossing number c stale v t
  | _, none => (t, false)

/-- The Plate Unit's work at a tick close of B (R149 to R155). A PLATE_OCCUPIED other than 0 and 1 is neither
(the model's choice, log entry 50). -/
def plateClose (s : State) : State × Bool :=
  match s.plate.detection with
  | .off => (s, false)
  | .waitClear =>
    (if delivers s .plateOccupied 0 then { s with plate := { s.plate with detection := .clear } } else s, false)
  | .clear =>
    if delivers s .plateOccupied 1 then
      ({ s with plate := { s.plate with
          detection := .opened, start := some (platePoint s), last := some (platePoint s),
          reversed := false, stale := plateStale s } }, false)
    else (s, false)
  | .opened =>
    if delivers s .plateOccupied 1 then
      let back := match value s .plateTravel, s.plate.last.bind (·.travel) with
        | some new, some old => decide (new < old)
        | _, _ => false
      ({ s with plate := { s.plate with
          reversed := s.plate.reversed || back, last := some (platePoint s),
          stale := s.plate.stale || plateStale s } }, false)
    else if delivers s .plateOccupied 0 then closeCrossing s
    else ({ s with plate := { s.plate with stale := s.plate.stale || plateStale s } }, false)

end Sys2Proof.Machine
end

