-- ==== Sys2Proof/Machine/Certificates.lean ====
section
/-! DEFINITION. The Certificate Builder and Certificate Queue (09, sections 9.2 and 9.3; R184): the
record of a certificate, its check value, assembly, and the sends of the oldest. -/

namespace Sys2Proof.Machine

/-! ### The record (R184) -/

/-- Bits of a list of flags, the first in bit 0. -/
def bits (l : List Bool) : Nat := l.foldr (fun b n => (if b then 1 else 0) + 2 * n) 0

/-- The plate outcome byte of an axle line: 0 for none. -/
def lineOutcome (p : Option PlateResult) : Nat := p.elim 0 fun r => plateCode r.outcome

/-- The bytes of an optional field with no presence byte. -/
def whenPresent {α : Type} (enc : α → List Byte) (x : Option α) : List Byte := x.elim [] enc

/-- An axle line (R184). -/
def lineRecord (l : AxleLine) : List Byte :=
  let wide := [l.loads.left, l.loads.right, l.servicePeaks.left, l.servicePeaks.right, l.parkPeaks.left,
    l.parkPeaks.right]
  let narrow := [l.results.imbalance, l.results.ovality.left, l.results.ovality.right,
    l.results.plate.bind (·.value)]
  be8 l.axle ++ be8 (bits [l.parkAxle, l.stale, l.results.plate.any (·.clamped)])
    ++ be8 (lineOutcome l.results.plate) ++ be16 (bits ((wide ++ narrow).map (·.isSome)))
    ++ (axleVerdicts l.results).flatMap (fun v => be8 (verdictCode v))
    ++ wide.flatMap (whenPresent signed24) ++ narrow.flatMap (whenPresent signed16)

/-- The record of a certificate up to the byte before its check value (R184). -/
def certBody (c : Certificate) : List Byte :=
  let dt := c.dateTime.getD []
  word32 c.number ++ be8 c.ident.length ++ c.ident ++ be8 dt.length ++ dt ++ be8 c.cls ++ be8 c.n
    ++ be8 (bits [c.aborted, c.lockCredit]) ++ be8 (bits [c.service.isSome, c.park.isSome])
    ++ whenPresent signed16 c.service ++ be8 (verdictCode c.serviceVerdict)
    ++ whenPresent signed16 c.park ++ be8 (verdictCode c.parkVerdict) ++ be8 (overallCode c.overall)
    ++ be16 c.repeats ++ be8 c.extra ++ word32 c.live ++ word32 c.hold ++ word16 c.generation
    ++ c.lines.flatMap lineRecord

/-- The whole record, with the check value it was given at its assembly. -/
def certRecord (c : Certificate) : List Byte := certBody c ++ word32 c.check

/-- Bytes cut into pieces of 112, at most `fuel` of them (R167). -/
def cut : Nat → List Byte → List (List Byte)
  | 0, _ => []
  | k + 1, l => if l.length ≤ 112 then [l] else l.take 112 :: cut k (l.drop 112)

/-- The pieces of a record; four cover its greatest length (R184). -/
def pieces (c : Certificate) : List (List Byte) := cut 4 (certRecord c)

/-- The CERT frames of a certificate, in index order (R167, R184). -/
def segments (c : Certificate) : List Frame :=
  (pieces c).mapIdx fun i p =>
    originate 61 kindCert (word32 c.number ++ be8 (i + 1) ++ be8 (pieces c).length ++ p)

/-! ### Assembly (R163 to R166) -/

/-- Any part of an axle entry carries a stale mark (R164), a plate result written after the evaluation among them
(the model's choice, log entry 61). -/
def entryStale (e : AxleEntry) : Bool :=
  e.plate.any (·.stale) || e.loads.any (fun p => p.left.stale || p.right.stale)
    || e.service.left.any (·.stale) || e.service.right.any (·.stale)
    || e.hold.left.any (·.stale) || e.hold.right.any (·.stale)
    || e.park.left.any (·.stale) || e.park.right.any (·.stale)

/-- A per-axle line from its axle entry and its results (R164). -/
def axleLine (v : VehicleRecord) (i : Nat) (e : AxleEntry) (r : AxleResults) : AxleLine :=
  { axle := i, parkAxle := v.park.contains i, stale := entryStale e,
    loads := { left := e.loads.map fun p => p.left.value, right := e.loads.map fun p => p.right.value },
    servicePeaks := { left := servicePeak e.service .left, right := servicePeak e.service .right },
    parkPeaks := { left := parkPeak e.park .left, right := parkPeak e.park .right }, results := r }

/-- The certificate of a record and its results, with its check value (R164, R165). -/
def assemble (number : Word32) (v : VehicleRecord) (r : VehicleResults) (live hold : Word32) : Certificate :=
  let c : Certificate :=
    { number, ident := v.ident, dateTime := v.dateTime, cls := v.cls, n := v.n,
      lines := (v.axles.zip r.axles).mapIdx fun i p => axleLine v (i + 1) p.1 p.2,
      service := r.service, serviceVerdict := r.serviceVerdict, lockCredit := r.lockCredit, park := r.park,
      parkVerdict := r.parkVerdict, overall := r.overall, aborted := v.aborted, repeats := v.repeats,
      extra := v.extra, live, hold, generation := v.generation, check := 0 }
  { c with check := crc32 (certBody c) }

/-- A send of the oldest certificate, when it is due and every segment has room (R167). -/
def certSendIfRoom (s : State) : State :=
  match s.certs.queue with
  | [] => s
  | c :: _ =>
    let frames := segments c
    if s.certs.due && decide (s.station.queue.length + frames.length ≤ queueCap .station) then
      let t := frames.foldl (fun t f => (offer .station f t).1) s
      let count := min (s.certs.sendCount + 1) 255
      certSentNotice c.number count
        { t with certs := { t.certs with due := false, sendCount := count, lastSend := some s.now } }
    else s

/-- The oldest certificate's delivery begun afresh (R167). -/
def becomeOldest (s : State) : State :=
  { s with certs := { s.certs with due := !s.certs.queue.isEmpty, sendCount := 0, lastSend := none } }

/-- FINISH asks for a certificate (R96, R166): assembled and queued, or none when the queue is full. -/
def queueCertificate (s : State) : Option State :=
  if certCap ≤ s.certs.queue.length then none
  else
    match s.vehicle.bind fun v => v.results.map fun r => (v, r) with
    | none => some s
    | some (v, r) =>
      let number := s.certs.number + 1
      let c := assemble number v r s.clock.live s.clock.hold
      let t := { s with certs := { s.certs with number, queue := s.certs.queue ++ [c] } }
      let u := t.count fun k => { k with certificates := k.certificates + 1 }
      some (if s.certs.queue.isEmpty then certSendIfRoom (becomeOldest u) else u)

/-- The oldest certificate removed by an acknowledge, and its notice (R169). -/
def removeOldest (s : State) : State :=
  match s.certs.queue with
  | [] => s
  | c :: rest =>
    certSendIfRoom (becomeOldest (certAckNotice c.number { s with certs := { s.certs with queue := rest } }))

end Sys2Proof.Machine
end

