-- ==== Sys2Proof/Machine/Engine.lean ====
section
/-! DEFINITION. The Lane Controller's state entries, pause causes and interruptions (R64, R76 to R84) and
the Step Engine (05): begins (R88), begin actions (R90 to R96), ends (R89), timeouts (R97 to R100),
interruptions and the return to TESTING (R101), bars (R104), and the discard of a vehicle (R162). -/

namespace Sys2Proof.Machine

/-! ### State entries (R64) -/

/-- The state with its Step Engine changed. -/
def State.setEngine (s : State) (f : EngineState → EngineState) : State := { s with engine := f s.engine }
/-- The state with its lane control changed. -/
def State.setLane (s : State) (f : LaneControl → LaneControl) : State := { s with lane := f s.lane }

/-- The LANE_STATE notice of an entry, for the state as it stands (R64). -/
def laneStateNotice (prev : LaneState) (o : LaneOccasion) (s : State) : State :=
  let remembered := if s.lane.state == .halted then s.lane.remembered else none
  notice 0x01 (word32 s.now ++ be8 (laneCode s.lane.state) ++ be8 (laneCode prev) ++ be8 (occasionCode o)
    ++ be8 (causesByte s.lane.causes) ++ optional (fun x => be8 (laneCode x)) remembered
    ++ flagByte s.vehicle.isSome) s

/-- The lane enters a state: `answer` offers the reply of a request that caused it, then the batches
are flushed, then LANE_STATE is offered (R64). -/
def enterLane (new : LaneState) (o : LaneOccasion) (answer : State → State) (s : State) : State :=
  laneStateNotice s.lane.state o (flushBatches (answer (s.setLane fun l => { l with state := new })))

/-- The pause-cause set left by a vehicle: only ESTOP stays (R74, R84). -/
def onlyEstop (c : PauseCauses) : PauseCauses := { PauseCauses.empty with estop := c.estop }

/-- The exit guidance "drive off" (R84). -/
def exitGuide (s : State) : State := offerGuide { message := 251, axle := 0, fields := none } s

/-- The entry to EXIT; the sides are asked to stop at an entry from FINISH, after
LANE_STATE (the model's choice, log entry 65); then the exit guidance (R84). -/
def enterExit (o : LaneOccasion) (s : State) : State :=
  let t := enterLane .exit o id (s.setLane fun l => { l with causes := onlyEstop l.causes })
  exitGuide (laneStopBoth t).1

/-- The exit wait ends at the first event after which every side is STOPPED, outside HALTED (R75). -/
def exitReady (s : State) : State :=
  if s.lane.exitWait && s.lane.state != .halted && bothStopped s then
    enterExit .exitReady (s.setLane fun l => { l with exitWait := false })
  else s

/-! ### Interruptions (R79, R101) -/

/-- The running step suspended (R101). -/
def suspend (s : State) : State :=
  if s.engine.phase != .running then s
  else
    match currentKind s with
    | some .spin | some .service | some .hold | some .park | some .weigh =>
      (watchesOff (resetEval s)).setEngine fun e =>
        { e with phase := .suspendedRestart, marks := { left := .clear, right := .clear } }
    | some .axleIn | some .axleOut | some .stop =>
      s.setEngine fun e => { e with phase := .suspendedContinue, presence := 0 }
    | some .finish => s.setEngine fun e => { e with phase := .suspendedContinue }
    | none => s

/-- A cause of a stale head or a hot motor added to the set: it interrupts in TESTING and PAUSING; in
PAUSED, `stops` says whether the sides are stopped (R76, R79). The stops come before LANE_STATE (the model's choice,
log entry 65). -/
def recordCause (add : PauseCauses → PauseCauses) (stops : Bool) (s : State) : State :=
  let t := s.setLane fun l => { l with causes := add l.causes }
  match s.lane.state with
  | .testing | .pausing => enterLane .paused .pauseCause id (laneStopBoth (suspend t)).1
  | .paused => if stops then (laneStopBoth t).1 else t
  | .off | .idle | .manual | .entry | .halted | .exit => t

/-- HEAD_STALE in the set. -/
def addHeadStale (c : PauseCauses) : PauseCauses := { c with headStale := true }
/-- DRIVE_FAULT in the set. -/
def addDriveFault (c : PauseCauses) : PauseCauses := { c with driveFault := true }

/-- The condition of HEAD_STALE tested anew at a report (R76, R77). -/
def testHeadStale (s : State) : State :=
  if s.lane.causes.headStale then
    if neededStale s then s else s.setLane fun l => { l with causes := { l.causes with headStale := false } }
  else if testUnderWay s && (settings s).headStaleEnable && neededStale s then recordCause addHeadStale false s
  else s

/-- DRIVE_FAULT recorded when an overtemperature flag becomes set, and removed when both are released (R76, R79). -/
def testDriveFault (s : State) : State :=
  if s.lane.causes.driveFault then
    if anyOvertemp s then s else s.setLane fun l => { l with causes := { l.causes with driveFault := false } }
  else if testUnderWay s && (settings s).driveFaultEnable && anyOvertemp s then recordCause addDriveFault true s
  else s

/-- The Lane Controller at an emergency stop, the rollers having been stopped (R82). -/
def estopLane (s : State) : State :=
  match s.lane.state with
  | .off | .halted => s
  | .idle | .manual | .entry | .testing | .pausing | .paused | .exit =>
    enterLane .halted .estop id ((suspend s).setLane fun l =>
      { l with causes := { l.causes with estop := true }, remembered := some s.lane.state })

/-! ### Guidance and bars (R102, R104) -/

/-- The GUIDE message of the current step (R102). -/
def stepGuide (p : PlanStep) (s : State) : GuideMessage :=
  { message := p.message, axle := s.engine.axle,
    fields := some ((s.vehicle.elim 0 (·.n)), s.engine.attempt) }

/-- The GUIDE frame of the current step offered. -/
def guideStep (s : State) : State :=
  match currentStep s with
  | none => s
  | some p => offerGuide (stepGuide p s) s

/-- A GUIDE_BARS frame of the values a close delivered (R104). -/
def barsFrame (s : State) : Frame :=
  let l := value s .brakeForceL
  let r := value s .brakeForceR
  let p := value s .pedalForce
  originate ((displayNode s).getD 0) kindGuideBars
    (be8 (bits [l.isSome, r.isSome, p.isSome]) ++ whenPresent signed24 l ++ whenPresent signed24 r
      ++ whenPresent signed24 p)

/-- The bar phase at a tick close of A, and the bar frame when it is due; the flag tells that one was (R104). -/
def barsClose (s : State) : State × Bool :=
  if !measuringRuns s then (s, false)
  else if (settings s).barInterval ≤ s.engine.barPhase + 1 then
    let r := offer .head (barsFrame s) (s.setEngine fun e => { e with barPhase := 0 })
    (if r.2 then r.1 else r.1.count fun c => { c with droppedBars := c.droppedBars + 1 }, true)
  else (s.setEngine fun e => { e with barPhase := e.barPhase + 1 }, false)

/-! ### Begins (R88) -/

/-- A step made current, to be begun by an occasion (R88, R89 item 5). Its side marks are clear while it waits: R88
item 3 sets them only at its begin, and R89 item 5 clears them only after FINISH (the model's choice, log entry 67). -/
def makeCurrent (axle step : Nat) (o : BeginOccasion) (s : State) : State :=
  s.setEngine fun e =>
    { e with axle, step := some step, phase := .waiting, waitOccasion := o, waitTaken := false,
             marks := { left := .clear, right := .clear } }

/-- The attempt after item 1 of R88. -/
def nextAttempt (o : BeginOccasion) (attempt : Nat) : Nat :=
  match o with
  | .advance | .rerun => 1
  | .rep => attempt + 1
  | .restart => attempt

/-- The STEP_BEGIN notice (R88). -/
def stepBeginNotice (k : StepKind) (o : BeginOccasion) (s : State) : State :=
  let e := s.engine
  notice 0x02 (word32 s.now ++ be8 (e.plan.getD 0) ++ be8 (e.step.getD 0) ++ be8 (stepKindCode k)
    ++ be8 e.axle ++ be8 e.attempt ++ be8 (beginCode o)) s

/-- The STEP_END notice (R89). -/
def stepEndNotice (k : StepKind) (en : StepEnding) (o : StepOutcome) (s : State) : State :=
  let e := s.engine
  notice 0x03 (word32 s.now ++ be8 (e.plan.getD 0) ++ be8 (e.step.getD 0) ++ be8 (stepKindCode k)
    ++ be8 e.axle ++ be8 e.attempt ++ be8 (stepEndingCode en) ++ be8 (stepOutcomeCode o)) s

/-- How a step ends. -/
structure StepEnd where
  ending : StepEnding
  outcome : StepOutcome
deriving DecidableEq, Repr

/-- The end of a step whose condition is met. -/
def completed : StepEnd := { ending := .completed, outcome := .ok }

/-- The end by the step's timeout action (R98 to R100). -/
def byAction (en : StepEnding) (p : PlanStep) (s : State) : StepEnd :=
  match p.action with
  | .rep => { ending := en, outcome := if s.engine.attempt - 1 < p.repeatLimit then .rep else .aborted }
  | .skip => { ending := en, outcome := .skipped }
  | .abort => { ending := en, outcome := .aborted }

/-- A side mark set. -/
def setMark (sd : Side) (m : SideMark) (s : State) : State :=
  s.setEngine fun e => { e with marks := e.marks.set sd m }

/-- SPIN's begin for one side (R92). -/
def spinSide (sd : Side) (s : State) : State × List Report :=
  match (s.roller sd).state with
  | .stopped => judgeStart .sequence sd (setMark sd .requested s)
  | .held | .spinningUp => (setMark sd .requested s, [])
  | .running => (setMark sd .up s, [])
  | .coasting => (setMark sd .waitingStandstill s, [])

/-- Both sides are marked UP. -/
def bothUp (s : State) : Bool := s.engine.marks.left == .up && s.engine.marks.right == .up

/-- SPIN's begin actions (R92, R93; log entry 23). Its STARTs come before the STOPs that its own end asks for (the
model's choice, log entry 60). -/
def beginSpin (p : PlanStep) (s : State) : State × Option StepEnd :=
  let l := spinSide .left s
  let r := spinSide .right l.1
  if !(l.2 ++ r.2).isEmpty then (r.1, some (byAction .ng p r.1))
  else (r.1, if bothUp r.1 then some completed else none)

/-- A side at the begin of a measuring step: its mark, and the supervisor's watch, accumulator, K and
window (R94, R117, R122). -/
def measureSide (hold : Bool) (sd : Side) (s : State) : State :=
  let r := s.roller sd
  if r.state == .running then
    let w : RollerSide := { r with watch := some { engaged := false, count := 0 } }
    (setMark sd .measuring s).setRoller sd
      (if hold then { w with increment := incrementK s, acc := 0, window := 1 } else w)
  else
    (setMark sd .notRun s).setRoller sd (if hold then { r with increment := incrementK s } else r)

/-- The begin actions of SERVICE, HOLD and PARK (R94). -/
def beginForce (hold : Bool) (s : State) : State × Option StepEnd :=
  let t := beginMeasure (if hold then .hold else .force) (measureSide hold .right (measureSide hold .left s))
  (t, if sidesEnded t then some completed else none)

/-- A stop asked for a side that is RUNNING, SPINNING_UP or HELD (R95). -/
def stopTurning (sd : Side) (s : State) : State :=
  match (s.roller sd).state with
  | .running | .spinningUp | .held => (laneStop sd s).1
  | .stopped | .coasting => s

/-- STOP's begin actions, and its continuation (R95, R101). -/
def beginStop (s : State) : State × Option StepEnd :=
  let t := stopTurning .right (stopTurning .left s)
  (t, if bothStopped t then some completed else none)

/-- FINISH asks for the certificate: it ends, or it waits under CERT_FULL (R81, R96). -/
def tryFinish (s : State) : State × Option StepEnd :=
  match queueCertificate s with
  | some t => (t, some completed)
  | none =>
    (enterLane .paused .pauseCause id
      ((s.setEngine fun e => { e with phase := .suspendedContinue }).setLane fun l =>
        { l with causes := { l.causes with certFull := true } }), none)

/-- The begin actions of a step's kind (R88 item 6). -/
def beginActions (p : PlanStep) (s : State) : State × Option StepEnd :=
  match p.kind with
  | .axleIn | .axleOut => (s, none)
  | .weigh => (beginWeigh s, none)
  | .spin => beginSpin p s
  | .service | .park => beginForce false s
  | .hold => beginForce true s
  | .stop => beginStop s
  | .finish => tryFinish (evaluateVehicle s)

/-- The causes recorded at a begin, item 2 of R88: the set after it. -/
def causesAtBegin (s : State) : PauseCauses :=
  let c := s.lane.causes
  { c with headStale := c.headStale || ((settings s).headStaleEnable && neededStale s),
           driveFault := c.driveFault || ((settings s).driveFaultEnable && anyOvertemp s) }

/-- A step begun (R88), with its end when that comes in the same event. A begin that item 2 holds back keeps its
occasion for the next begin, RESTART too (the model's choice, log entry 59). -/
def beginStep (o : BeginOccasion) (s : State) : State × Option StepEnd :=
  match currentStep s with
  | none => (s, none)
  | some p =>
    let s1 := s.setEngine fun e =>
      { e with phase := .waiting, waitOccasion := o, waitTaken := true,
               attempt := if e.waitTaken then e.attempt else nextAttempt o e.attempt }
    let causes := causesAtBegin s1
    if causes ≠ s1.lane.causes then
      let t := (laneStopBoth (s1.setLane fun l => { l with causes })).1
      (if t.lane.state == .paused then t else enterLane .paused .pauseCause id t, none)
    else
      let s2 := s1.setEngine fun e =>
        { e with phase := .running, elapsed := 0, presence := 0, barPhase := 0, waitTaken := false,
                 marks := { left := .clear, right := .clear } }
      beginActions p (guideStep (stepBeginNotice p.kind o s2))

/-! ### Ends (R89, R98 to R100) -/

/-- Items 1 and 2 of R100, and its day count (R161). Its STOPs follow the one whose report brought it (the model's
choice, log entry 58). -/
def abortVehicle (s : State) : State :=
  let t : State := { s with vehicle := s.vehicle.map fun v => { v with aborted := true } }
  (laneStopBoth (t.count fun c => { c with aborted := c.aborted + 1 })).1

/-- A held side stopped at the end of a skipped SPIN (R93). -/
def stopHeld (sd : Side) (s : State) : State :=
  if (s.roller sd).state == .held then (laneStop sd s).1 else s

/-- What an outcome does before the results are written (R93, R98, R100; log entry 38). -/
def beforeResults (k : StepKind) (o : StepOutcome) (s : State) : State :=
  match o with
  | .ok => s
  | .rep => { s with vehicle := s.vehicle.map fun v => { v with repeats := min (v.repeats + 1) 65535 } }
  | .skipped => if k == .spin then stopHeld .right (stopHeld .left s) else s
  | .aborted => abortVehicle s

/-- The Step Engine after FINISH or a discard; the pending-guide register is kept (R87, R89). -/
def clearEngine (s : State) : State :=
  s.setEngine fun e => { EngineState.reset with pendingGuide := e.pendingGuide }

/-- The next step made current after an end other than FINISH's (R89 item 5), with its begin occasion. -/
def nextStep (o : StepOutcome) (s : State) : State × BeginOccasion :=
  let plan := s.engine.plan.getD 0
  let sec := axleSection s.working plan
  match o with
  | .rep => (makeCurrent s.engine.axle (s.engine.step.getD 0) .rep s, .rep)
  | .aborted => (makeCurrent 0 sec.length .advance s, .advance)
  | .ok | .skipped =>
    let park := s.vehicle.elim [] (·.park)
    let r := findStep sec park (s.vehicle.elim 0 (·.n)) s.engine.axle (s.engine.step.getD 0 + 1)
    (makeCurrent r.1 r.2 .advance s, .advance)

/-- The state in which a step's results are formed: what the outcome does first, and the sides closed (R89, R133). -/
def beforeEnd (x : StepEnd) (k : StepKind) (s : State) : State :=
  let t := beforeResults k x.outcome s
  if x.ending == .completed then t else closeSides t

/-- Items 1 to 4 of R89 for a step's results, if it writes any: the record, the drop of the measurement, the
flush, STEP_END and AXLE_RESULT. -/
def writeResults (x : StepEnd) (k : StepKind) (w : Option Written) (s : State) : State :=
  let t := match w with
    | some r => s.setAxle s.engine.axle (writeEntry r)
    | none => s
  let u := stepEndNotice k x.ending x.outcome (flushBatches (watchesOff (resetEval t)))
  match w with
  | some r => axleResultNotice u.engine.axle u.engine.attempt r u
  | none => u

/-- A step concluded (R89, items 1 to 4). -/
def concludeStep (x : StepEnd) (k : StepKind) (s : State) : State :=
  let t := beforeEnd x k s
  writeResults x k (if x.outcome == .rep then none else results (x.ending == .completed) t) t

/-- What follows a concluded step (R78, R84, R89): EXIT after FINISH, the next step's begin in TESTING, PAUSED else. -/
def afterStep (o : StepOutcome) (k : StepKind) (s : State) : State × Option BeginOccasion :=
  if k == .finish then (enterExit .stepEnd (clearEngine s), none)
  else
    let n := nextStep o s
    if n.1.lane.state == .testing then (n.1, some n.2)
    else (enterLane .paused .stepEnd id n.1, none)

/-- A step ended (R89), with the occasion of the next begin when that comes in the same event. -/
def endStep (x : StepEnd) (s : State) : State × Option BeginOccasion :=
  match currentKind s with
  | none => (s, none)
  | some k => afterStep x.outcome k (concludeStep x k s)

/-! ### The Step Engine run (log entry 25) -/

/-- What the Step Engine does next within an event. -/
inductive Job where
  | start (o : BeginOccasion)
  | finish (x : StepEnd)
deriving DecidableEq, Repr

/-- Begins and ends in one event, as many as follow from one another. -/
def runEngine : Nat → Job → State → State
  | 0, _, s => s
  | k + 1, .start o, s =>
    let r := beginStep o s
    match r.2 with
    | some x => runEngine k (.finish x) r.1
    | none => r.1
  | k + 1, .finish x, s =>
    let r := endStep x s
    match r.2 with
    | some o => runEngine k (.start o) r.1
    | none => r.1

/-- More begins and ends than one event can hold: 8 passes of 23 steps with 4 attempts each, and FINISH. -/
def engineFuel : Nat := 2048

/-- A step begun, with all that follows in the event. -/
def startStep (o : BeginOccasion) (s : State) : State := runEngine engineFuel (.start o) s
/-- A step ended, with all that follows in the event. -/
def finishStep (x : StepEnd) (s : State) : State := runEngine engineFuel (.finish x) s

/-! ### The test's start and the return to TESTING (R71, R72, R80, R101) -/

/-- The passage from ENTRY to TESTING, and the plan begun (R71, R72). -/
def startTest (o : LaneOccasion) (answer : State → State) (s : State) : State :=
  let t := enterLane .testing o answer (s.setLane fun l => { l with autoTest := .clear })
  let plan := (limits t).plan
  let r := findStep (axleSection t.working plan) (t.vehicle.elim [] (·.park)) (t.vehicle.elim 0 (·.n)) 1 0
  startStep .advance (makeCurrent r.1 r.2 .advance (t.setEngine fun e => { e with plan := some plan }))

/-- The SPIN step to go back to before a measuring step with a side not RUNNING (R80). -/
def rerunFrom (s : State) : Option Nat :=
  if (currentKind s).any isMeasuring && !bothRunning s then
    spinBefore (axleSection s.working (s.engine.plan.getD 0)) (s.vehicle.elim [] (·.park)) s.engine.axle
      (s.engine.step.getD 0)
  else none

/-- The current step begun anew at a return: a SPIN by rerun, or the step itself (R80, R101). -/
def beginAgain (o : BeginOccasion) (s : State) : State :=
  match rerunFrom s with
  | some i => startStep .rerun (makeCurrent s.engine.axle i .rerun s)
  | none => startStep o s

/-- What a continued step does at once: STOP asks for its stops again and FINISH for its certificate (R101). -/
def goOn (s : State) : State × Option StepEnd :=
  match currentKind s with
  | some .stop => beginStop s
  | some .finish => tryFinish s
  | _ => (s, none)

/-- A step that was kept as it stood goes on (R101). -/
def continueStep (s : State) : State :=
  let r := goOn (guideStep (s.setEngine fun e => { e with phase := .running }))
  match r.2 with
  | some x => finishStep x r.1
  | none => r.1

/-- The current step taken up at the return to TESTING (R101). A restart that was held back is begun with RESTART
(the model's choice, log entry 59). -/
def takeUp (s : State) : State :=
  match s.engine.phase with
  | .none | .running => s
  | .waiting => beginAgain s.engine.waitOccasion s
  | .suspendedRestart => beginAgain .restart (s.setEngine fun e => { e with waitTaken := false })
  | .suspendedContinue => continueStep s

/-- The return from PAUSED to TESTING (R80). -/
def returnToTesting (answer : State → State) (s : State) : State :=
  takeUp (enterLane .testing .resumed answer s)

/-- The return at the event after which the pause-cause set is empty (R80). -/
def maybeReturn (s : State) : State :=
  if s.lane.state == .paused && s.vehicle.isSome && !s.lane.exitWait && noCause s.lane.causes then
    returnToTesting id s
  else s

/-! ### Reports of the supervisor and the Evaluator (R92 to R95, R133) -/

/-- The running SPIN ends NG (R93). -/
def spinFails (s : State) : State :=
  match currentStep s with
  | some p => finishStep (byAction .ng p s) s
  | none => s

/-- A SPIN step is RUNNING and the side has the mark. -/
def spinMark (sd : Side) (m : SideMark) (s : State) : Bool :=
  runningKind s .spin && s.engine.marks.get sd == m

/-- A measuring step ends once every MEASURING side has ended (R94). -/
def endIfMeasured (s : State) : State :=
  if measuringRuns s && sidesEnded s then finishStep completed s else s

/-- One report taken by the Step Engine and the Evaluator (R92 to R95, R133). -/
def takeReport (r : Report) (s : State) : State :=
  match r with
  | .spinUpOk sd =>
    if spinMark sd .requested s then
      let t := setMark sd .up s
      if bothUp t then finishStep completed t else t
    else s
  | .spinUpNg sd | .refused sd => if spinMark sd .requested s then spinFails s else s
  | .leftRunning sd =>
    if spinMark sd .up s then setMark sd .waitingStandstill s
    else if measuringRuns s then endIfMeasured (endStopped sd s)
    else s
  | .standstill sd =>
    if spinMark sd .waitingStandstill s then
      let t := judgeStart .sequence sd (setMark sd .requested s)
      if t.2.isEmpty then t.1 else spinFails t.1
    else if runningKind s .stop && bothStopped s then finishStep completed s
    else s

/-- Reports taken in order, then the exit wait looked at (R75). -/
def takeReports (l : List Report) (s : State) : State := exitReady (l.foldl (fun t r => takeReport r t) s)

/-! ### The discard of a vehicle (R162) -/

/-- The record discarded with the state that belongs to it (R72, R87, R106, R125, R147, R162, R173). -/
def discard (s : State) : State :=
  let t := clearEngine (watchesOff (resetEval s))
  { t with vehicle := none, plate := PlateUnit.reset, clock := { t.clock with live := 0, hold := 0 },
           lane := { t.lane with autoTest := .clear } }

/-- The vehicle closed or cancelled: discarded, and a pending switch applied (R60). -/
def discardWith (o : SwitchOccasion) (s : State) : State := applyPending o (discard s)

/-- The re-zero count and the periodic ZERO of a lane clearance (R84). -/
def periodicZero (s : State) : State :=
  let n := min (s.lane.rezeroCount + 1) 255
  let p := (settings s).rezeroPeriod
  if p ≠ 0 ∧ p ≤ n then
    (syncBroadcast .zero .periodic s).setLane fun l => { l with rezeroCount := 0 }
  else s.setLane fun l => { l with rezeroCount := n }

/-- The lane clearance, in EXIT with the lane found empty (R84). -/
def clearance (s : State) : State :=
  if s.lane.state == .exit && !s.lane.exitWait && laneEmpty s then
    if s.vehicle.isSome then enterLane .idle .close id (periodicZero (discardWith .close s))
    else enterLane .idle .cancel id (periodicZero s)
  else s

end Sys2Proof.Machine
end

