-- ==== Sys2Proof/Machine/Ticks.lean ====
section
/-! DEFINITION. Tick issues with the tick close they bring (R25, R26, R38), the rows that name a thing a
tick close does, the lane millisecond (R172, R173) with what falls due at it, and the reference step
(R22). -/

namespace Sys2Proof.Machine

/-- What happened at a tick close, for the rows that name it (log entry 5). -/
structure CloseTrace where
  stale : List Quantity
  locked : Pair Bool
  released : Pair Bool
  carried : Pair Bool
  presence : Bool
  bars : Bool
deriving DecidableEq, Repr

/-- Nothing happened. -/
def CloseTrace.nothing : CloseTrace :=
  { stale := [], locked := { left := false, right := false }, released := { left := false, right := false },
    carried := { left := false, right := false }, presence := false, bars := false }

/-! ### The consumers of a set (log entry 4) -/

/-- The Step Engine's presence test of AXLE_IN and AXLE_OUT at a tick close of B; the flag tells that the
count reached 5 (R90). -/
def presenceClose (s : State) : State × Bool :=
  let wanted : Option Int := match currentKind s with
    | some .axleIn => some 1
    | some .axleOut => some 0
    | _ => none
  match wanted with
  | none => (s, false)
  | some x =>
    if s.engine.phase != .running then (s, false)
    else if deliversIfMapped s .axlePresentL x && deliversIfMapped s .axlePresentR x then
      let n := s.engine.presence + 1
      let t := s.setEngine fun e => { e with presence := n }
      if 5 ≤ n then (finishStep completed t, true) else (t, false)
    else (s.setEngine fun e => { e with presence := 0 }, false)

/-- A side that this close ended by release. -/
def releasedNow (before after : EvalSide) : Bool :=
  before.phase != .ended && after.phase == .ended && after.ending == .released

/-- The consumers of a set of A: Roller Supervisor, Brake Evaluator, Step Engine. -/
def consumersA (s : State) : State × CloseTrace :=
  let l := sideClose .left s
  let r := sideClose .right l.1
  let m :=
    if measuringRuns r.1 then measureClose { left := l.2.2, right := r.2.2 } r.1 else r.1
  let b := barsClose m
  let t := endIfMeasured (takeReports (l.2.1 ++ r.2.1) b.1)
  (t, { CloseTrace.nothing with
    locked := { left := l.2.2.lock, right := r.2.2.lock },
    carried := { left := l.2.2.carry, right := r.2.2.carry },
    released := { left := releasedNow r.1.eval.sides.left m.eval.sides.left,
                  right := releasedNow r.1.eval.sides.right m.eval.sides.right },
    bars := b.2 })

/-- The Evaluator's part of a close of B: a WEIGH that settles; the flag tells that its loads settled (R126). -/
def weighClose (s : State) : State × Bool := if s.eval.activity == .settling then settleClose s else (s, false)

/-- The consumers of a set of B: Brake Evaluator, Plate Unit, Step Engine; the second flag tells that a
crossing consumed an axle. The close that settles a WEIGH does not count for the presence count of a step begun in its
event (the model's choice, log entry 53). -/
def consumersB (s : State) : State × CloseTrace × Bool :=
  let w := weighClose s
  let p := plateClose w.1
  if w.2 then (finishStep completed p.1, CloseTrace.nothing, p.2)
  else
    let e := presenceClose p.1
    (e.1, { CloseTrace.nothing with presence := e.2 }, p.2)

/-- The quantity is in the set of a close of the cadence (R38). -/
def inSet (s : State) (c : Cadence) (q : Quantity) : Bool := (mapped s q).any (·.cadence == c)

/-- Both presence sensors deliver 1 at a close of the cadence (R72). A close with neither sensor in its set
delivers neither; sensors of two cadences are taken from the last set of each (R38, R39; log entry 39). -/
def bothPresent (c : Cadence) (s : State) : Bool :=
  (inSet s c .axlePresentL || inSet s c .axlePresentR) &&
    delivers s .axlePresentL 1 && delivers s .axlePresentR 1

/-- The automatic passage of R72 at a tick close; `crossed` tells that a crossing consumed an axle. -/
def autoPassage (c : Cadence) (crossed : Bool) (s : State) : State :=
  let event := if hasPlateHead s then crossed else bothPresent c s
  if s.lane.autoTest == .armed && event then
    if s.lane.state == .entry && !s.lane.exitWait then startTest .autoTest id s
    else if s.lane.state == .halted && s.lane.remembered == some .entry then
      s.setLane fun l => { l with autoTest := .due }
    else s
  else s

/-- The consumers of a set, in the order of log entry 4. -/
def consumers (c : Cadence) (o : CloseOrder) (s : State) : State × CloseTrace :=
  let s1 := if o == .clearanceFirst then clearance s else s
  let r : State × CloseTrace × Bool := match c with
    | .a => let a := consumersA s1; (a.1, a.2, false)
    | .b => consumersB s1
  let t := autoPassage c r.2.2 r.1
  (if o == .clearanceLast then clearance t else t, r.2.1)

/-! ### The Conditioner's tick close (R34 to R42, R77) -/

/-- One quantity at a tick close, and its own report to the Lane Controller when it has become STALE or fresh,
after its notice (R35 to R37, R77). -/
def closeAndReport (c : Cadence) (o : OpenTick) (q : Quantity) (s : State) : State × Option Delivery :=
  let r := closeQuantity c o q s
  (if (s.qty q).stale != (r.1.qty q).stale then testHeadStale r.1 else r.1, r.2)

/-- The quantities of a list at a tick close, in order, with their records (R37). -/
def closeQuantities (c : Cadence) (o : OpenTick) : List Quantity → State → State × List (Option Delivery)
  | [], s => (s, [])
  | q :: rest, s =>
    let r := closeAndReport c o q s
    let r' := closeQuantities c o rest r.1
    (r'.1, r.2 :: r'.2)

/-- The Conditioner's tick close: the set delivered becomes the cadence's last set (R34, R38). -/
def conditionerClose (c : Cadence) (o : OpenTick) (s : State) : State :=
  let r := closeQuantities c o allQuantities s
  r.1.setLastSet c { tick := some (s.cad c).tick, records := r.2 }

/-- What comes before the other consumers at a tick close: the Conditioner's close with its reports, and then
the batches (R34 to R42, R77; log entry 22). -/
def deliver (c : Cadence) (x : OpenTick) (s : State) : State :=
  buildBatches c (s.cad c).tick (conditionerClose c x s)

/-- The quantities that a tick close makes STALE (R35). -/
def becomeStale (c : Cadence) (x : OpenTick) (s : State) : List Quantity :=
  (staleQuantities (conditionerClose c x s)).filter fun q => !(staleQuantities s).contains q

/-- The tick close of the open tick (R34 to R42, R76, R84). -/
def tickClose (c : Cadence) (x : OpenTick) (o : CloseOrder) (s : State) : State × CloseTrace :=
  let r := consumers c o (deliver c x s)
  (maybeReturn r.1, { r.2 with stale := becomeStale c x s })

/-! ### Tick issue (R25, R26) -/

/-- A tick frame (R25, section 11.6). -/
def tickFrame (c : Cadence) (n : Word16) : Frame :=
  originate 63 kindTick (be8 (cadenceCode c) ++ word16 n)

/-- A skipped tick counted (R26). -/
def countSkipped (c : Cadence) (s : State) : State :=
  s.count fun k => match c with
    | .a => { k with skippedA := k.skippedA + 1 }
    | .b => { k with skippedB := k.skippedB + 1 }

/-- Items 2 and 3 of R25: the next tick issued, its frame offered, skipped when refused. -/
def issueTick (c : Cadence) (s : State) : State :=
  let n := (s.cad c).tick + 1
  let r := offer .head (tickFrame c n) (s.setCad c { s.cad c with tick := n, openTick := some { skipped := false, void := false } })
  if r.2 then r.1
  else countSkipped c (r.1.setCad c { r.1.cad c with openTick := some { skipped := true, void := false } })

/-- A carry's tick issue, with the close of the open tick (R25); with no carry waiting, nothing. -/
def tickEvent (c : Cadence) (o : CloseOrder) (s : State) : State × CloseTrace :=
  if (s.cad c).running && (s.cad c).carryDue then
    let s1 := s.setCad c { s.cad c with carryDue := false }
    match (s.cad c).openTick with
    | none => (issueTick c s1, CloseTrace.nothing)
    | some x =>
      let r := tickClose c x o (s1.setCad c { s1.cad c with openTick := none })
      (issueTick c r.1, r.2)
  else (s, CloseTrace.nothing)

/-- The tick issue of cadence A when its close does the thing a row names, and otherwise nothing (log entry 5). -/
def whenTrace (c : Cadence) (o : CloseOrder) (happens : CloseTrace → Bool) (s : State) : State :=
  let r := tickEvent c o s
  if happens r.2 then r.1 else s

/-- The cadence of a mapped quantity; A when it is not mapped. -/
def cadenceOfQuantity (s : State) (q : Quantity) : Cadence := (mapped s q).elim .a (·.cadence)

/-! ### What falls due at a lane millisecond -/

/-- The step's timeout expires (R97). -/
def timeoutExpiry (s : State) : State :=
  match currentStep s with
  | none => s
  | some p =>
    if s.engine.phase == .running && p.timeout != 0 && decide (p.timeout ≤ s.engine.elapsed) then
      finishStep (byAction .timeout p s) s
    else s

/-- The spin-up window of a side runs out (R114). -/
def spinUpWindowEnds (sd : Side) (s : State) : State :=
  match (s.roller sd).state, (s.roller sd).sendTime with
  | .spinningUp, some t =>
    if (settings s).spinUpWindow ≤ elapsedSince s.now t then
      let r := spinUpExpiry sd s
      takeReports r.2 r.1
    else s
  | _, _ => s

/-- The held START of a side tested (R110). -/
def heldTest (sd : Side) (s : State) : State :=
  if (s.roller sd).state == .held && (s.roller sd).testDue then
    let r := testHeld sd s
    takeReports r.2 r.1
  else s

/-- A history entry aged once 600,000 ms old (R107). -/
def ageEntry (now : Word32) (e : HistoryEntry) : HistoryEntry :=
  { e with aged := e.aged || decide (600000 ≤ elapsedSince now e.time) }

/-- The history entries of a side aged (R107). -/
def ageHistory (sd : Side) (s : State) : State :=
  s.setRoller sd { s.roller sd with history := (s.roller sd).history.map (ageEntry s.now) }

/-- The oldest certificate due again 10,000 ms after its last send (R168). -/
def resendDue (s : State) : State :=
  match s.certs.queue, s.certs.lastSend with
  | _ :: _, some t =>
    if !s.certs.due && decide (10000 ≤ elapsedSince s.now t) then
      certSendIfRoom { s with certs := { s.certs with due := true } }
    else s
  | _, _ => s

/-- The pending-guide register's message offered to a place the head transmit queue has lost (R103). -/
def pendingGuideOffered (s : State) : State :=
  match s.engine.pendingGuide with
  | none => s
  | some g => if hasRoom .head s then offerGuide g s else s

/-- What acts at the lane millisecond and was not commanded (R97, R107, R110, R114, R168, R172; log entry 3). -/
def takeDueWork (s : State) : State :=
  let s1 := timeoutExpiry s
  let s2 := spinUpWindowEnds .right (spinUpWindowEnds .left s1)
  let s3 := heldTest .right (heldTest .left s2)
  resendDue (ageHistory .right (ageHistory .left s3))

/-- The waiting offers that freed places have room for (R103, R167; log entry 6). -/
def takeFreedPlaces (s : State) : State := pendingGuideOffered (certSendIfRoom s)

/-- The lane holds a vehicle up (R173). -/
def holds : LaneState → Bool
  | .pausing | .paused | .halted => true
  | .off | .idle | .manual | .entry | .testing | .exit => false

/-- Lane time, and live or hold time, one millisecond on (R172, R173). -/
def advanceClock (s : State) : Clock :=
  let c := s.clock
  let opened := s.vehicle.isSome
  { c with laneTime := c.laneTime + 1, msDue := false,
           live := if opened && !holds s.lane.state then c.live + 1 else c.live,
           hold := if opened && holds s.lane.state then c.hold + 1 else c.hold }

/-- The running time of a step with a timeout, one millisecond on (R97). -/
def advanceElapsed (s : State) : EngineState :=
  let e := s.engine
  if e.phase == .running && (currentStep s).any (fun p => p.timeout != 0) then
    { e with elapsed := e.elapsed + 1 }
  else e

/-- A held START to be tested at this millisecond (R110). -/
def markTest (r : RollerSide) : RollerSide := { r with testDue := r.state == .held }

/-- The lane millisecond (R172); with none waiting, nothing. What acts at it has rows of its own, taken in its
reference step (log entry 3). -/
def millisecond (s : State) : State :=
  if s.clock.msDue then
    { s with clock := advanceClock s, engine := advanceElapsed s,
             rollers := { s.rollers with sides :=
               { left := markTest s.rollers.sides.left, right := markTest s.rollers.sides.right } } }
  else s

/-! ### The reference step (R22, R172) -/

/-- A cadence one reference step on: a running one adds its increment modulo 2³², and a sum that
reaches 2³² is a carry (R22). -/
def stepCadence (c : CadenceState) : CadenceState :=
  if c.running then
    let sum := c.acc.toNat + c.inc
    { c with acc := BitVec.ofNat 32 sum, carryDue := c.carryDue || decide (2 ^ 32 ≤ sum) }
  else c

/-- The clock one reference step on: every thousandth is a lane millisecond (R172). -/
def stepClock (c : Clock) : Clock :=
  if 1000 ≤ c.micro + 1 then { c with micro := 0, msDue := true } else { c with micro := c.micro + 1 }

/-- The tick issues that are due and were not commanded. -/
def takeTicks (s : State) : State := (tickEvent .b .clearanceLast (tickEvent .a .clearanceLast s).1).1

/-- The events the last reference step brought and that were not commanded, taken (log entry 2). A lane
millisecond still due comes after the tick issues, with all that acts at it; what acts at one already taken in
this reference step (no step has been counted since it) comes before them. Places freed are then filled. -/
def takeDueEvents (s : State) : State :=
  takeFreedPlaces
    (if s.clock.msDue then takeDueWork (millisecond (takeTicks s))
     else takeTicks (if s.clock.micro = 0 then takeDueWork s else s))

/-- One 1 µs reference step (R22, R172). -/
def referenceStep (s : State) : State :=
  let t := takeDueEvents s
  { t with cadA := stepCadence t.cadA, cadB := stepCadence t.cadB, clock := stepClock t.clock }

end Sys2Proof.Machine
end

