-- ==== Sys2Proof/Machine/Ports.lean ====
section
/-! DEFINITION. The Frame Router's decision on a frame (R12 to R20) and the commands of the ports: resets,
receptions, sends, and the frames that are discarded or forwarded. -/

namespace Sys2Proof.Machine

/-! ### The Frame Router (R13, R14, R16, R19) -/

/-- What becomes of a frame. -/
inductive Route where
  | misdirected | forwarded | sample | status | mgmt | start | stop
deriving DecidableEq, Repr

/-- An address of a head: 1 to 47. -/
def isHead (a : Byte) : Bool := inRange 1 a.toNat 47
/-- An address of the station segment: 61 or 62. -/
def isStation (a : Byte) : Bool := inRange 61 a.toNat 62

/-- The address check (R13). -/
def goodAddress (p : Port) (f : Frame) : Bool :=
  match p with
  | .head => isHead f.src && (f.dst == 0 || isStation f.dst)
  | .station => isStation f.src && (f.dst == 0 || isHead f.dst)

/-- The part-originated kinds (01, section 1.2.2). -/
def partOriginated (k : Byte) : Bool :=
  [kindTick, kindSync, kindGuide, kindGuideBars, kindBatch, kindNotice, kindMreply, kindCert].contains k

/-- The Router's decision on a COMMAND for a head (R19). One for the drive cabinet with an empty payload carries
no command code and is forwarded (the model's choice, log entry 41). -/
def routeCommand (f : Frame) (s : State) : Route :=
  match cabinetNode s with
  | none => .misdirected
  | some n =>
    if f.dst.toNat != n then .forwarded
    else match f.payload with
      | [] => .forwarded
      | b :: _ => if b = 0x01 then .start else if b = 0x02 then .stop else .forwarded

/-- The Router's decision on a frame of a port (R13 to R20). -/
def route (p : Port) (f : Frame) (s : State) : Route :=
  if !goodAddress p f then .misdirected
  else if partOriginated f.kind then .misdirected
  else if f.kind = kindSample then if p == .head && f.dst == 0 then .sample else .misdirected
  else if f.kind = kindStatus then
    if p == .head && f.dst == 0 && cabinetNode s == some f.src.toNat then .status else .misdirected
  else if f.kind = kindMgmt then if p == .station && f.dst == 0 then .mgmt else .misdirected
  else if f.kind = kindCommand then
    if p == .head || f.dst == 0 then .misdirected else routeCommand f s
  else if f.dst = 0 then .misdirected
  else .forwarded

/-- The frame of a FIFO that the Router takes next, when it decides `r` on it, and the state without it (R12). -/
def taken (p : Port) (r : Route) (s : State) : Option (Frame × State) :=
  match (s.port p).fifo with
  | [] => none
  | f :: rest => if route p f s = r then some (f, s.setPort p { s.port p with fifo := rest }) else none

/-- A frame that fails its content check (R15, R16, R19). -/
def contentError (p : Port) (s : State) : State := s.countPort p fun c => { c with content := c.content + 1 }

/-- The other port. -/
def otherPort : Port → Port
  | .head => .station
  | .station => .head

/-! ### Meanings -/

/-- POWER_ON_RESET: every piece of state at its value after power-on reset (R11, R24, R46, R49, R65, R87,
R106, R125, R147, R159, R163, R171 to R175, R179); the commands that wait are not the part's. -/
def execPowerOnReset (s : State) : Host.Outcome State Fault Refusal :=
  .next { State.reset with pending := s.pending }

/-- A good frame joins its receive FIFO, or is lost to a full one (R4). -/
def receive (p : Port) (f : Frame) (s : State) : State :=
  if (s.port p).fifo.length < fifoCap p then
    s.setPort p { s.port p with fifo := (s.port p).fifo ++ [f] }
  else s.countPort p fun c => { c with rxOverrun := c.rxOverrun + 1 }

/-- What the checks make of a reception that ended (R1 to R4). -/
def endReception (p : Port) (line : List Byte) (s : State) : State :=
  match scanLine [] line with
  | .broken rx =>
    (s.setPort p { s.port p with rx }).countPort p fun c => { c with framing := c.framing + 1 }
  | .bytes l =>
    let t := s.setPort p { s.port p with rx := .idle }
    match checkArrival l with
    | .lengthError => t.countPort p fun c => { c with length := c.length + 1 }
    | .checkError => t.countPort p fun c => { c with checkValue := c.checkValue + 1 }
    | .good f => receive p f t

/-- RECEPTION (R1 to R4): with a reception under way, its end. -/
def execReception (p : Port) (line : List Byte) (s : State) : Host.Outcome State Fault Refusal :=
  .next (if (s.port p).rx = .receiving then
      endReception p line (s.countPort p fun c => { c with framesIn := c.framesIn + 1 })
    else s)

/-- START_DELIMITER_SEEN (R1): an idle receiver, or one that ignores the line, begins a reception; for one
that is receiving it is the second start delimiter, which ends the reception in a framing error and begins a
new one. -/
def execStartDelimiterSeen (p : Port) (s : State) : Host.Outcome State Fault Refusal :=
  .next (if (s.port p).rx = .receiving then
      endReception p [0xF2] (s.countPort p fun c => { c with framesIn := c.framesIn + 1 })
    else s.setPort p { s.port p with rx := .receiving })

/-- SEND_BEGIN (R6, R8): the taken frame goes on the line. -/
def execSendBegin (p : Port) (s : State) : Host.Outcome State Fault Refusal :=
  .next (match (s.port p).tx with
    | .taken f => s.setPort p { s.port p with tx := .sending f (lineBytes f) }
    | _ => s)

/-- The frames-out count and the transmitter idle, at a send completion (R6, R8). -/
def sendDone (p : Port) (s : State) : State :=
  (s.setPort p { s.port p with tx := .idle }).countPort p fun c => { c with framesOut := c.framesOut + 1 }

/-- STATION_SEND_COMPLETION (R6). -/
def execStationSendCompletion (s : State) : Host.Outcome State Fault Refusal :=
  .next (match s.station.tx with
    | .sending _ _ => takeStation (sendDone .station s)
    | _ => s)

/-- The completion of a START reported to the Roller Supervisor (R8). -/
def reportSent (f : Frame) (s : State) : State :=
  if isStart .left f then startSent .left s
  else if isStart .right f then startSent .right s
  else s

/-- HEAD_SEND_COMPLETION (R8). -/
def execHeadSendCompletion (s : State) : Host.Outcome State Fault Refusal :=
  .next (match s.head.tx with
    | .sending f _ => reportSent f (takeHead (sendDone .head s))
    | _ => s)

/-- MISDIRECTED_FRAME (R13, R14, R16, R19). -/
def execMisdirectedFrame (p : Port) (s : State) : Host.Outcome State Fault Refusal :=
  .next (match taken p .misdirected s with
    | some (_, t) => t.countPort p fun c => { c with misdirected := c.misdirected + 1 }
    | none => s)

/-- FORWARDED_FRAME (R19, R20). -/
def execForwardedFrame (p : Port) (s : State) : Host.Outcome State Fault Refusal :=
  .next (match taken p .forwarded s with
    | some (f, t) => offerCounted (otherPort p) f t
    | none => s)

end Sys2Proof.Machine
end

