-- ==== Sys2Proof/Machine/HeadFrames.lean ====
section
/-! DEFINITION. The commands that hand a frame to the Conditioner or the Roller Supervisor: SAMPLE (R15,
R29), STATUS (R16, R119 to R121), and the station's START and STOP for the drive cabinet (R19, R108, R112). -/

namespace Sys2Proof.Machine

/-- The raw values of a SAMPLE payload after its header, `c` of them (section 11.3). -/
def sampleValues : Nat → List Byte → List Int
  | 0, _ => []
  | k + 1, l => fieldInt l 0 2 :: sampleValues k (l.drop 2)

/-- The channel count and length of a SAMPLE are in order (R15). -/
def goodSample (l : List Byte) : Bool := inRange 1 (field l 2 1) 8 && l.length == 3 + 2 * field l 2 1

/-- A SAMPLE frame taken by the Router (R15, R29). -/
def takeSampleFrame (f : Frame) (s : State) : State :=
  if goodSample f.payload then
    takeSample f.src.toNat (BitVec.ofNat 16 (field f.payload 0 2))
      (sampleValues (field f.payload 2 1) (f.payload.drop 3)) s
  else contentError .head s

/-- SAMPLE_FRAME (R15, R29, R30). -/
def execSampleFrame (s : State) : Host.Outcome State Fault Refusal :=
  .next (match taken .head .sample s with
    | some (f, t) => takeSampleFrame f t
    | none => s)

/-- The copy of a STATUS frame for the lane station (R16). -/
def statusCopy (f : Frame) : Frame :=
  { f with dst := 62, check := crc16 (checkedBytes 62 f.src f.kind f.payload) }

/-- A STATUS byte: 0 for off or released, any other value for on or set (section 11.3). -/
def statusFlag (l : List Byte) (i : Nat) : Bool := field l i 1 != 0

/-- The emergency-stop flag of a STATUS (R119, R120, R82). -/
def takeEstop (set : Bool) (s : State) : State :=
  if set == s.rollers.estop then s
  else if set then estopLane (estopRollers s)
  else { s with rollers := { s.rollers with estop := false } }

/-- A side's overtemperature flag of a STATUS (R119, R121). -/
def takeOvertemp (sd : Side) (set : Bool) (s : State) : State :=
  if set == (s.roller sd).overtemp then s
  else
    let t := testDriveFault (s.setRoller sd { s.roller sd with overtemp := set })
    if set then
      let r := overtempHeld sd t
      takeReports r.2 r.1
    else t

/-- A side's contactor state of a STATUS (R119). -/
def takeContactor (sd : Side) (on : Bool) (s : State) : State :=
  let r := contactor sd on s
  takeReports r.2 r.1

/-- The supervisor's taking of a STATUS, in the order of R119. The contactor states are taken L before R, and a
report is acted on before the other side is taken (the model's choice, log entry 48). -/
def takeStatus (l : List Byte) (s : State) : State :=
  let s1 := takeEstop (statusFlag l 4) s
  let s2 := takeOvertemp .right (statusFlag l 3) (takeOvertemp .left (statusFlag l 1) s1)
  maybeReturn (takeContactor .right (statusFlag l 2) (takeContactor .left (statusFlag l 0) s2))

/-- A STATUS frame taken by the Router: the copy, then the supervisor (R16; log entry 27). -/
def takeStatusFrame (f : Frame) (s : State) : State :=
  if f.payload.length = 5 then takeStatus f.payload (offerCounted .station (statusCopy f) s)
  else contentError .head s

/-- STATUS_FRAME (R16, R119 to R121). -/
def execStatusFrame (s : State) : Host.Outcome State Fault Refusal :=
  .next (match taken .head .status s with
    | some (f, t) => takeStatusFrame f t
    | none => s)

/-- The side of a START or STOP that passes its content check (R19). -/
def commandSide (l : List Byte) : Option Side :=
  match l with
  | [_, b] => sideOfByte b
  | _ => none

/-- STATION_START (R19, R108). -/
def execStationStart (s : State) : Host.Outcome State Fault Refusal :=
  .next (match taken .station .start s with
    | some (f, t) =>
      match commandSide f.payload with
      | some sd =>
        let r := judgeStart .station sd t
        takeReports r.2 r.1
      | none => contentError .station t
    | none => s)

/-- STATION_STOP (R19, R112). -/
def execStationStop (s : State) : Host.Outcome State Fault Refusal :=
  .next (match taken .station .stop s with
    | some (f, t) =>
      match commandSide f.payload with
      | some sd =>
        let r := stationStop sd t
        takeReports r.2 r.1
      | none => contentError .station t
    | none => s)

end Sys2Proof.Machine
end

