-- ==== Sys2Proof/Machine/Requests.lean ====
section
/-! DEFINITION. The Management Unit (R18, R181, R182), and the requests of the Table Banks (R51, R53, R55,
R56, R59, R63), the cadences (R27), the counters (R175), the reads (R176, R180), and the certificates
(R163, R169). -/

namespace Sys2Proof.Machine

/-! ### Taking a request (R181) -/

/-- The next MGMT frame of the station FIFO, when its payload is one that a row owns: its source, its
content and the state without it. -/
def takeRequest (owns : List Byte → Bool) (s : State) : Option (Frame × State) :=
  match taken .station .mgmt s with
  | some (f, t) => if owns f.payload then some (f, t) else none
  | none => none

/-- The request with a code: its handler acts on the source and the content. -/
def onRequest (code : Byte) (handle : Nat → List Byte → State → State) (s : State) : State :=
  match takeRequest (fun l => l.head? == some code) s with
  | some (f, t) => handle f.src.toNat (f.payload.drop 1) t
  | none => s

/-- As `onRequest`, for a row that owns one selector byte of its code: its content is that byte, or
names no row of the code (log entry 7). -/
def onSelected (code selector : Byte) (named : Byte → Bool) (handle : Nat → List Byte → State → State)
    (s : State) : State :=
  match takeRequest (fun l => l.head? == some code &&
      match l.drop 1 with
      | [b] => b == selector || !named b
      | _ => true) s with
  | some (f, t) => handle f.src.toNat (f.payload.drop 1) t
  | none => s

/-- The answer to a malformed request (R181). -/
def malformed (src : Nat) (code : Byte) (s : State) : State := reply src code statusBadArgument [detailMalformed] s
/-- The answer to a request with a field out of range (R181). -/
def outOfRange (src : Nat) (code : Byte) (s : State) : State := reply src code statusBadArgument [detailRange] s

/-- UNKNOWN_REQUEST (R181): an empty payload, echoed as 00, or a code that names no request. -/
def execUnknownRequest (s : State) : Host.Outcome State Fault Refusal :=
  .next (match takeRequest (fun l => match l with
      | [] => true
      | b :: _ => !inRange 1 b.toNat 15) s with
    | some (f, t) => reply f.src.toNat (f.payload.headD 0) statusUnknown [] t
    | none => s)

/-! ### Table Banks -/

/-- A TABLE_WRITE whose form is good, for a table that exists (R51). An index follows the detail only where an entry was
found wanting (the model's reading, log entry 17). -/
def tableWrite (src : Nat) (t : Table) (first : Nat) (parts : List (List Byte)) (s : State) : State :=
  if s.banks.switchPending then reply src 0x01 statusPending [] s
  else if parts.isEmpty || decide (entryCount t < first + parts.length) then outOfRange src 0x01 s
  else
    match writeTable s.shadow t first parts with
    | .inl i => reply src 0x01 statusBadArgument (detailRange :: be8 i) s
    | .inr b => reply src 0x01 statusDone [] { s with shadow := b, banks := { s.banks with modified := true } }

/-- A TABLE_WRITE request (R51, R181; log entry 17). -/
def takeTableWrite (src : Nat) (l : List Byte) (s : State) : State :=
  if l.length < 3 then malformed src 0x01 s
  else
    match tableOf (field l 0 1) with
    | none => if s.banks.switchPending then reply src 0x01 statusPending [] s else outOfRange src 0x01 s
    | some t =>
      match splitEntries t (field l 2 1) (l.drop 3) with
      | none => malformed src 0x01 s
      | some parts => tableWrite src t (field l 1 1) parts s

/-- TABLE_WRITE (R51, R52). -/
def execTableWrite (s : State) : Host.Outcome State Fault Refusal := .next (onRequest 0x01 takeTableWrite s)

/-- The bank a code names (chapter 11). -/
def bankOf (s : State) (n : Nat) : Option Bank := [s.working, s.shadow][n]?

/-- A TABLE_READ request (R53, section 11.5). -/
def takeTableRead (src : Nat) (l : List Byte) (s : State) : State :=
  if l.length ≠ 4 then malformed src 0x02 s
  else
    match bankOf s (field l 0 1), tableOf (field l 1 1) with
    | some b, some t =>
      let first := field l 2 1
      let count := field l 3 1
      let entries := readTable b t first count
      if count = 0 ∨ entryCount t < first + count ∨ 113 < entries.length then outOfRange src 0x02 s
      else
        reply src 0x02 statusDone
          (word16 s.banks.generation ++ be8 (tableCode t) ++ be8 first ++ be8 count ++ entries) s
    | _, _ => outOfRange src 0x02 s

/-- TABLE_READ (R53). -/
def execTableRead (s : State) : Host.Outcome State Fault Refusal := .next (onRequest 0x02 takeTableRead s)

/-- The fields of a failure (R55). -/
def failureFields (f : Failure) : List Byte :=
  be8 (checkCode f.check) ++ be8 (tableCode f.table) ++ optional be8 f.entry

/-- The last validation result replaced (R55, R56, R63). -/
def setLast (r : ValidationResult) (s : State) : State := { s with banks := { s.banks with last := r } }

/-- BANK_SWITCH APPLY (R55, R56). -/
def applyRequest (src : Nat) (s : State) : State :=
  if s.banks.switchPending then reply src 0x03 statusPending (be8 0) s
  else if s.vehicle.isNone && !(s.lane.state == .off || s.lane.state == .idle || s.lane.state == .manual) then
    reply src 0x03 statusRefused [] s
  else
    match validate s.shadow with
    | some f => reply src 0x03 statusBadTable (failureFields f) (setLast (.failed f) s)
    | none =>
      let t := setLast .passed s
      if s.vehicle.isSome then
        reply src 0x03 statusPending (be8 1) { t with banks := { t.banks with switchPending := true } }
      else
        applySwitch .request (fun u => reply src 0x03 statusDone (word16 u.banks.generation) u) t

/-- BANK_SWITCH CANCEL (R59); the shadow-modified flag stays as it stands (the model's choice, log entry 46), and
the reply comes before the notice (the model's choice, log entry 63). -/
def cancelRequest (src : Nat) (s : State) : State :=
  if s.banks.switchPending then
    droppedNotice (reply src 0x03 statusDone [] { s with banks := { s.banks with switchPending := false } })
  else reply src 0x03 statusRefused [] s

/-- A request with one content byte: malformed, out of range, or taken. -/
def oneByte (code wanted : Byte) (act : Nat → State → State) (src : Nat) (l : List Byte) (s : State) : State :=
  if l.length ≠ 1 then malformed src code s
  else if l = [wanted] then act src s
  else outOfRange src code s

/-- The BANK_SWITCH actions: APPLY 1, CANCEL 2. -/
def isAction (b : Byte) : Bool := inRange 1 b.toNat 2

/-- BANK_SWITCH_APPLY (R55, R56, R57). -/
def execBankSwitchApply (s : State) : Host.Outcome State Fault Refusal :=
  .next (onSelected 0x03 0x01 isAction (oneByte 0x03 0x01 applyRequest) s)

/-- BANK_SWITCH_CANCEL (R59). -/
def execBankSwitchCancel (s : State) : Host.Outcome State Fault Refusal :=
  .next (onSelected 0x03 0x02 isAction (oneByte 0x03 0x02 cancelRequest) s)

/-- The last validation result in a reply (R63; log entry 15). -/
def lastFields : ValidationResult → List Byte
  | .none => be8 0
  | .passed => be8 1
  | .failed f => be8 2 ++ failureFields f

/-- A BANK_STATUS request (R63). -/
def takeBankStatus (src : Nat) (l : List Byte) (s : State) : State :=
  if l ≠ [] then malformed src 0x04 s
  else
    reply src 0x04 statusDone (flagByte s.banks.valid ++ word16 s.banks.generation
      ++ flagByte s.banks.switchPending ++ flagByte s.banks.modified ++ lastFields s.banks.last) s

/-- BANK_STATUS (R63). -/
def execBankStatus (s : State) : Host.Outcome State Fault Refusal := .next (onRequest 0x04 takeBankStatus s)

/-! ### Cadences (R23, R27) -/

/-- The increment of a rate: rate × 2³² / 10⁶, rounded half up (R23). -/
def incrementOf (rate : Nat) : Nat := (rate * 2 ^ 33 + 1000000) / 2000000

/-- A rate within the range of its cadence (R23). -/
def goodRate : Cadence → Nat → Bool
  | .a, r => inRange 10 r 1000
  | .b, r => inRange 1 r 200

/-- A CADENCE_SET request (R27). -/
def takeCadenceSet (src : Nat) (l : List Byte) (s : State) : State :=
  if l.length ≠ 3 then malformed src 0x09 s
  else if s.lane.state ≠ .off then reply src 0x09 statusBusy [] s
  else
    match cadenceOf (field l 0 1) with
    | none => outOfRange src 0x09 s
    | some c =>
      let rate := field l 1 2
      if goodRate c rate then
        reply src 0x09 statusDone [] (s.setCad c { s.cad c with rate, inc := incrementOf rate })
      else outOfRange src 0x09 s

/-- CADENCE_SET (R27). -/
def execCadenceSet (s : State) : Host.Outcome State Fault Refusal := .next (onRequest 0x09 takeCadenceSet s)

/-! ### Sync requests (R178) -/

/-- The sync codes a request can carry, 1 to 4. -/
def isSync (b : Byte) : Bool := inRange 1 b.toNat 4

/-- The answer when a sync request is refused (R178). -/
def syncRefusal (code : SyncCode) (s : State) : Option Byte :=
  match code with
  | .zero | .streamOff => if s.vehicle.isSome then some statusBusy else none
  | .streamOn | .headRestart => if s.lane.state = .off then some statusRefused else none
  | .tare => some statusBadArgument

/-- A sync request for a code (R178): the issue, the reply, and the SYNC notice after it. -/
def syncRequest (code : SyncCode) (src : Nat) (s : State) : State :=
  match syncRefusal code s with
  | some status => reply src 0x0A status [] s
  | none =>
    let r := issueSync code .station s
    syncNotice code .station r.2 (reply src 0x0A statusDone (flagByte r.2) r.1)

/-- SYNC_REQUEST_ZERO (R177, R178). -/
def execSyncRequestZero (s : State) : Host.Outcome State Fault Refusal :=
  .next (onSelected 0x0A 0x01 isSync (oneByte 0x0A 0x01 (syncRequest .zero)) s)

/-- SYNC_REQUEST_STREAM_ON (R177, R178). -/
def execSyncRequestStreamOn (s : State) : Host.Outcome State Fault Refusal :=
  .next (onSelected 0x0A 0x02 isSync (oneByte 0x0A 0x02 (syncRequest .streamOn)) s)

/-- SYNC_REQUEST_STREAM_OFF (R177, R178). -/
def execSyncRequestStreamOff (s : State) : Host.Outcome State Fault Refusal :=
  .next (onSelected 0x0A 0x03 isSync (oneByte 0x0A 0x03 (syncRequest .streamOff)) s)

/-- SYNC_REQUEST_HEAD_RESTART (R177, R178). -/
def execSyncRequestHeadRestart (s : State) : Host.Outcome State Fault Refusal :=
  .next (onSelected 0x0A 0x04 isSync (oneByte 0x0A 0x04 (syncRequest .headRestart)) s)

/-! ### Counters and reads (R175, R176, R180) -/

/-- A COUNTERS_LATCH with its clear flag (R175). -/
def latch (clear : Bool) (src : Nat) (s : State) : State :=
  reply src 0x0B statusDone (word32 s.now)
    { s with latched := s.live, latchTime := some s.now, live := if clear then Counters.zero else s.live }

/-- A COUNTERS_LATCH request (R175). -/
def takeCountersLatch (src : Nat) (l : List Byte) (s : State) : State :=
  if l.length ≠ 1 then malformed src 0x0B s
  else
    match boolOf (field l 0 1) with
    | some clear => latch clear src s
    | none => outOfRange src 0x0B s

/-- COUNTERS_LATCH (R175). -/
def execCountersLatch (s : State) : Host.Outcome State Fault Refusal := .next (onRequest 0x0B takeCountersLatch s)

/-- The latch time in a reply. -/
def latchFields (s : State) : List Byte := optional word32 s.latchTime

/-- STATUS_READ section LANE (R176). A remembered state, an oldest number and a latch time of none are sent as absent
fields (the model's reading, log entry 16). -/
def laneSection (s : State) : List Byte :=
  word32 s.now ++ be8 (laneCode s.lane.state) ++ optional (fun x => be8 (laneCode x)) s.lane.remembered
    ++ be8 (causesByte s.lane.causes) ++ be8 (autoCode s.lane.autoTest) ++ flagByte s.lane.exitWait
    ++ flagByte s.rollers.estop ++ flagByte (s.roller .left).overtemp ++ flagByte (s.roller .right).overtemp
    ++ be8 (rollerCode (s.roller .left).state) ++ be8 (rollerCode (s.roller .right).state)
    ++ be16 s.cadA.rate ++ be16 s.cadB.rate ++ flagByte s.cadA.running ++ flagByte s.cadB.running
    ++ word16 s.cadA.tick ++ word16 s.cadB.tick ++ word16 s.banks.generation ++ flagByte s.banks.switchPending
    ++ word32 s.certs.number ++ be8 s.certs.queue.length ++ optional (fun c => word32 c.number) s.certs.queue.head?
    ++ be8 s.syncLog.entries.length ++ flagByte (halfFlag s.syncLog) ++ be16 s.syncLog.overflow ++ latchFields s

/-- The fields of an open vehicle in STATUS_READ (R176). -/
def vehicleFields (s : State) (v : VehicleRecord) : List Byte :=
  be8 v.cls ++ be8 v.n ++ be8 (parkByte v.park) ++ word32 v.openTime ++ word32 s.clock.live
    ++ word32 s.clock.hold ++ flagByte v.aborted ++ be16 v.repeats ++ be8 v.extra

/-- STATUS_READ section VEHICLE (R176). A vehicle that is not open, and a plan and a step index of none, are sent as
absent fields (the model's reading, log entry 16). -/
def vehicleSection (s : State) : List Byte :=
  optional (vehicleFields s) s.vehicle ++ optional be8 s.engine.plan ++ optional be8 s.engine.step
    ++ be8 s.engine.axle ++ be8 (phaseCode s.engine.phase) ++ be8 s.engine.attempt
    ++ be8 s.plate.axleCount ++ be8 s.plate.crossing

/-- A quantity in STATUS_READ section QUANTITIES (R176). -/
def quantityFields (s : State) (q : Quantity) : List Byte :=
  let x := s.qty q
  flagByte (mapped s q).isSome ++ optional signed24 x.lastCond ++ optional signed24 x.lastConv
    ++ signed24 x.tare ++ be8 x.missing ++ flagByte x.stale

/-- The nine counts of a port (R21). -/
def portFields (c : PortCounts) : List Byte :=
  word32 c.framesIn ++ word32 c.framesOut ++ word32 c.framing ++ word32 c.length ++ word32 c.checkValue
    ++ word32 c.content ++ word32 c.rxOverrun ++ word32 c.txOverrun ++ word32 c.misdirected

/-- STATUS_READ section PORT_COUNTS (R176). -/
def portSection (s : State) : List Byte := portFields s.latched.head ++ portFields s.latched.station ++ latchFields s

/-- The counts of a quantity (R47). -/
def quantityCountFields (c : QuantityCounts) : List Byte := word32 c.clamps ++ word32 c.holds ++ word32 c.late

/-- STATUS_READ section PART_COUNTS (R176). -/
def partSection (s : State) : List Byte :=
  let c := s.latched
  word32 c.skippedA ++ word32 c.skippedB ++ word32 c.droppedBatches ++ word32 c.unmapped
    ++ word32 c.droppedBars ++ word32 c.droppedReplies ++ word32 c.reverse ++ word32 c.opened
    ++ word32 c.cancelled ++ word32 c.aborted ++ word32 c.certificates ++ latchFields s

/-- The content of a list section from a first index, when the request is within the list and fits (R176). -/
def listSection {α : Type} (enc : α → List Byte) (tail : List Byte) (l : List α) (first count : Nat) :
    Option (List Byte) :=
  let body := ((l.drop first).take count).flatMap enc ++ tail
  if count = 0 ∨ l.length < first + count ∨ 118 < body.length then none else some body

/-- The content of a STATUS_READ section (R176). -/
def statusSection (s : State) (sec first count : Nat) : Option (List Byte) :=
  match sec with
  | 1 => some (laneSection s)
  | 2 => some (vehicleSection s)
  | 3 => listSection (quantityFields s) [] allQuantities first count
  | 4 => some (portSection s)
  | 5 => listSection quantityCountFields (latchFields s) s.latched.quantities first count
  | 6 => some (partSection s)
  | _ => none

/-- A STATUS_READ request (R176). -/
def takeStatusRead (src : Nat) (l : List Byte) (s : State) : State :=
  if l.length ≠ 3 then malformed src 0x0C s
  else
    match statusSection s (field l 0 1) (field l 1 1) (field l 2 1) with
    | some body => reply src 0x0C statusDone body s
    | none => outOfRange src 0x0C s

/-- STATUS_READ (R176). -/
def execStatusRead (s : State) : Host.Outcome State Fault Refusal := .next (onRequest 0x0C takeStatusRead s)

/-- A Sync Log entry in a reply (R180, R185). -/
def logFields (e : SyncEntry) : List Byte := word32 e.time ++ be8 (syncCode e.code) ++ be8 (sourceCode e.source)

/-- A LOG_READ of the oldest entries (R180). -/
def logRead (count : Nat) (remove : Bool) (src : Nat) (s : State) : State :=
  let l := s.syncLog
  let body := (l.entries.take count).flatMap logFields ++ be16 l.overflow ++ be8 l.entries.length
  reply src 0x0D statusDone body
    (if remove then { s with syncLog := { entries := l.entries.drop count, overflow := 0 } } else s)

/-- A LOG_READ request (R180). -/
def takeLogRead (src : Nat) (l : List Byte) (s : State) : State :=
  if l.length ≠ 2 then malformed src 0x0D s
  else
    match boolOf (field l 1 1) with
    | some remove => if inRange 1 (field l 0 1) 16 then logRead (field l 0 1) remove src s else outOfRange src 0x0D s
    | none => outOfRange src 0x0D s

/-- LOG_READ (R180). -/
def execLogRead (s : State) : Host.Outcome State Fault Refusal := .next (onRequest 0x0D takeLogRead s)

/-! ### Certificates (R163, R169) -/

/-- A CERT_ACK for a number (R169, R166, R81). -/
def ackCertificate (number : Word32) (src : Nat) (s : State) : State :=
  match s.certs.queue with
  | [] => outOfRange src 0x0E s
  | c :: _ =>
    if c.number = number then
      let t := removeOldest (reply src 0x0E statusDone [] s)
      maybeReturn (t.setLane fun l => { l with causes := { l.causes with certFull := false } })
    else reply src 0x0E statusNotOldest (word32 c.number) s

/-- A CERT_ACK request (R169; log entry 34). -/
def takeCertAck (src : Nat) (l : List Byte) (s : State) : State :=
  if l.length ≠ 4 then malformed src 0x0E s else ackCertificate (BitVec.ofNat 32 (readNat l)) src s

/-- CERT_ACK (R169). -/
def execCertAck (s : State) : Host.Outcome State Fault Refusal := .next (onRequest 0x0E takeCertAck s)

/-- A CERT_NUMBER_SET request (R163). -/
def takeCertNumberSet (src : Nat) (l : List Byte) (s : State) : State :=
  if l.length ≠ 4 then malformed src 0x0F s
  else if s.vehicle.isSome || !s.certs.queue.isEmpty then reply src 0x0F statusBusy [] s
  else reply src 0x0F statusDone [] { s with certs := { s.certs with number := BitVec.ofNat 32 (readNat l) } }

/-- CERT_NUMBER_SET (R163). -/
def execCertNumberSet (s : State) : Host.Outcome State Fault Refusal := .next (onRequest 0x0F takeCertNumberSet s)

end Sys2Proof.Machine
end

