-- ==== Sys2Proof/Machine/Lane.lean ====
section
/-! DEFINITION. The lane commands (04): the GO requests (R66 to R72, R78, R80, R83), opening and
cancelling a vehicle (R73, R74, R159), and the lane reset (R85). -/

namespace Sys2Proof.Machine

/-! ### GO requests (R66) -/

/-- The GO codes, 1 to 8. -/
def isGo (b : Byte) : Bool := inRange 1 b.toNat 8

/-- The DONE reply of a GO request: the lane state and the pause-cause set as they stand (R66; log entry 11). -/
def goDone (src : Nat) (s : State) : State :=
  reply src 0x05 statusDone (be8 (laneCode s.lane.state) ++ be8 (causesByte s.lane.causes)) s

/-- A GO request that is not taken (R66). -/
def goRefused (src : Nat) (s : State) : State := reply src 0x05 statusRefused [] s

/-- A cadence started (R24). -/
def startCadence (c : CadenceState) : CadenceState :=
  { c with acc := 0, running := true, openTick := none, carryDue := false }

/-- Both cadences started, every decimation phase 0 (R24, R40). -/
def startCadences (s : State) : State :=
  { s with cadA := startCadence s.cadA, cadB := startCadence s.cadB,
           quantities := s.quantities.map fun x => { x with phase := 0 } }

/-- A cadence stopped: its open tick is abandoned (R24). -/
def stopCadence (c : CadenceState) : CadenceState := { c with running := false, openTick := none, carryDue := false }

/-- Both cadences stopped, every pending raw value discarded (R24, R45). -/
def stopCadences (s : State) : State :=
  { s with cadA := stopCadence s.cadA, cadB := stopCadence s.cadB,
           quantities := s.quantities.map fun x => { x with pendingRaw := none, excused := false } }

/-- GO_IDLE (R50, R67); the SYNC notice is offered before the DONE reply (the model's choice, log entry 47). -/
def goIdle (src : Nat) (s : State) : State :=
  if !s.banks.valid then reply src 0x05 statusBadTable [] s
  else if s.lane.state == .off && !s.rollers.estop && !s.lane.exitWait then
    enterLane .idle (.go .idle) (goDone src) (syncBroadcast .streamOn .sequence (startCadences s))
  else goRefused src s

/-- GO_OFF (R68). -/
def goOff (src : Nat) (s : State) : State :=
  if (s.lane.state == .idle || s.lane.state == .manual) && s.vehicle.isNone && !s.lane.exitWait then
    stopCadences (syncBroadcast .streamOff .sequence
      (enterLane .off (.go .off) (goDone src) (laneStopBoth s).1))
  else goRefused src s

/-- GO_MANUAL (R69). -/
def goManual (src : Nat) (s : State) : State :=
  if s.lane.state == .idle && s.vehicle.isNone && !s.lane.exitWait then
    enterLane .manual (.go .manual) (goDone src) s
  else goRefused src s

/-- The TARE action logged (R33, R177). -/
def logTare (s : State) : State :=
  let r := logSync .tare .sequence s
  syncNotice .tare .sequence r.2 r.1

/-- The entry of a vehicle: tare, plate detection, guidance, and the state ENTRY (R70). The STALE notices of tares
kept come before the SYNC notice of the TARE entry (the model's choice, log entry 56). -/
def enterVehicle (g : GoRequest) (src : Nat) (s : State) : State :=
  enterLane .entry (.go g) (goDone src)
    (offerGuide { message := 250, axle := 0, fields := none } (plateOn (logTare (takeTare s))))

/-- GO_ENTRY and GO_ENTRY_TO_TEST are taken in IDLE with a vehicle open (R66). -/
def entryTaken (s : State) : Bool := s.lane.state == .idle && s.vehicle.isSome && !s.lane.exitWait

/-- GO_ENTRY (R70). -/
def goEntry (src : Nat) (s : State) : State :=
  if entryTaken s then enterVehicle .entry src s else goRefused src s

/-- GO_ENTRY_TO_TEST (R72). -/
def goEntryToTest (src : Nat) (s : State) : State :=
  if entryTaken s then
    enterVehicle .entryToTest src (s.setLane fun l => { l with autoTest := .armed })
  else goRefused src s

/-- GO_TEST (R71). -/
def goTest (src : Nat) (s : State) : State :=
  if s.lane.state == .entry && !s.lane.exitWait then startTest (.go .test) (goDone src) s else goRefused src s

/-- GO_PAUSE (R78). -/
def goPause (src : Nat) (s : State) : State :=
  if s.lane.state == .testing && !s.lane.exitWait then
    let t := s.setLane fun l => { l with causes := { l.causes with station := true } }
    if (currentKind s).any isForce then enterLane .pausing (.go .pause) (goDone src) t
    else enterLane .paused (.go .pause) (goDone src) (suspend t)
  else goRefused src s

/-- STATION out of the pause-cause set. -/
def dropStation (s : State) : State := s.setLane fun l => { l with causes := { l.causes with station := false } }

/-- GO_RESUME in PAUSED (R80). -/
def resumePaused (src : Nat) (s : State) : State :=
  let t := dropStation s
  if noCause t.lane.causes then returnToTesting (goDone src) t else goDone src t

/-- GO_RESUME in HALTED with the flag released and a remembered state (R83). An entry to EXIT with the vehicle
cancelled offers the exit guidance (R84, R105; log entry 40). -/
def resumeHalted (src : Nat) (r : LaneState) (s : State) : State :=
  let t := s.setLane fun l => { l with causes := { l.causes with estop := false }, remembered := none }
  if s.lane.exitWait then exitReady (enterLane r .resumed (goDone src) t)
  else match r with
    | .testing | .paused =>
      if noCause t.lane.causes then returnToTesting (goDone src) t
      else enterLane .paused .resumed (goDone src) t
    | .pausing => enterLane .paused .resumed (goDone src) t
    | .entry =>
      let u := enterLane .entry .resumed (goDone src) t
      if u.lane.autoTest == .due then startTest .autoTest id u else u
    | .exit =>
      let u := enterLane .exit .resumed (goDone src) t
      if s.vehicle.isNone then exitGuide u else u
    | .off | .idle | .manual | .halted => enterLane r .resumed (goDone src) t

/-- GO_RESUME (R78, R80, R83; log entry 30). -/
def goResume (src : Nat) (s : State) : State :=
  match s.lane.state, s.lane.remembered with
  | .halted, some r => if s.rollers.estop then goRefused src s else resumeHalted src r s
  | .pausing, _ =>
    if s.lane.exitWait then goRefused src s
    else enterLane .testing .resumed (goDone src) (dropStation s)
  | .paused, _ => if s.lane.exitWait then goRefused src s else resumePaused src s
  | _, _ => goRefused src s

/-- LANE_COMMAND with GO_IDLE (R67). -/
def execGoIdle (s : State) : Host.Outcome State Fault Refusal :=
  .next (onSelected 0x05 0x01 isGo (oneByte 0x05 0x01 goIdle) s)
/-- LANE_COMMAND with GO_OFF (R68). -/
def execGoOff (s : State) : Host.Outcome State Fault Refusal :=
  .next (onSelected 0x05 0x02 isGo (oneByte 0x05 0x02 goOff) s)
/-- LANE_COMMAND with GO_MANUAL (R69). -/
def execGoManual (s : State) : Host.Outcome State Fault Refusal :=
  .next (onSelected 0x05 0x03 isGo (oneByte 0x05 0x03 goManual) s)
/-- LANE_COMMAND with GO_ENTRY (R70). -/
def execGoEntry (s : State) : Host.Outcome State Fault Refusal :=
  .next (onSelected 0x05 0x04 isGo (oneByte 0x05 0x04 goEntry) s)
/-- LANE_COMMAND with GO_TEST (R71). -/
def execGoTest (s : State) : Host.Outcome State Fault Refusal :=
  .next (onSelected 0x05 0x05 isGo (oneByte 0x05 0x05 goTest) s)
/-- LANE_COMMAND with GO_ENTRY_TO_TEST (R72). -/
def execGoEntryToTest (s : State) : Host.Outcome State Fault Refusal :=
  .next (onSelected 0x05 0x06 isGo (oneByte 0x05 0x06 goEntryToTest) s)
/-- LANE_COMMAND with GO_PAUSE (R78). -/
def execGoPause (s : State) : Host.Outcome State Fault Refusal :=
  .next (onSelected 0x05 0x07 isGo (oneByte 0x05 0x07 goPause) s)
/-- LANE_COMMAND with GO_RESUME (R78, R80, R83). -/
def execGoResume (s : State) : Host.Outcome State Fault Refusal :=
  .next (onSelected 0x05 0x08 isGo (oneByte 0x05 0x08 goResume) s)

/-! ### The vehicle (R73, R74, R159) -/

/-- The fields of a VEHICLE_OPEN. -/
structure OpenRequest where
  cls : Nat
  n : Nat
  park : List Nat
  ident : List Byte
  dateTime : List Byte
deriving DecidableEq, Repr

/-- A length byte and that many bytes cut off a list, with what is left. -/
def cutCounted (l : List Byte) : Option (List Byte × List Byte) :=
  match l with
  | [] => none
  | b :: rest => if b.toNat ≤ rest.length then some (rest.take b.toNat, rest.drop b.toNat) else none

/-- The form of a VEHICLE_OPEN: class, n and three counted lists, with nothing left over (chapter 11, R181). -/
def parseOpen (l : List Byte) : Option OpenRequest :=
  match l with
  | c :: n :: rest =>
    (cutCounted rest).bind fun p =>
    (cutCounted p.2).bind fun i =>
    (cutCounted i.2).bind fun d =>
      if d.2 = [] then
        some { cls := c.toNat, n := n.toNat, park := p.1.map (·.toNat), ident := i.1, dateTime := d.1 }
      else none
  | _ => none

/-- A printable character (R159). -/
def printable (b : Byte) : Bool := inRange 32 b.toNat 126

/-- The fields of a VEHICLE_OPEN are in range (R73, R159). -/
def goodOpen (r : OpenRequest) : Bool :=
  inRange 0 r.cls 7 && inRange 2 r.n 8 && inRange 0 r.park.length 8 && r.park.all (fun a => inRange 1 a r.n)
    && inRange 1 r.ident.length 20 && inRange 0 r.dateTime.length 16 && r.ident.all printable
    && r.dateTime.all printable

/-- The record of a vehicle that is opened (R159). -/
def newRecord (r : OpenRequest) (s : State) : VehicleRecord :=
  { ident := r.ident, dateTime := if r.dateTime = [] then none else some r.dateTime, cls := r.cls, n := r.n,
    park := [1, 2, 3, 4, 5, 6, 7, 8].filter (r.park.contains ·), generation := s.banks.generation,
    openTime := s.now, aborted := false, repeats := 0, extra := 0,
    axles := List.replicate r.n AxleEntry.empty, results := none }

/-- A vehicle opened (R73, R159, R173). -/
def openVehicle (r : OpenRequest) (s : State) : State :=
  { s.count (fun c => { c with opened := c.opened + 1 }) with
    vehicle := some (newRecord r s), clock := { s.clock with live := 0, hold := 0 } }

/-- A VEHICLE_OPEN request (R73), taken in IDLE during an exit wait too, where R75 has no vehicle open (the model's
choice, log entry 52). -/
def takeVehicleOpen (src : Nat) (l : List Byte) (s : State) : State :=
  match parseOpen l with
  | none => malformed src 0x06 s
  | some r =>
    if s.lane.state ≠ .idle ∨ s.vehicle.isSome then reply src 0x06 statusRefused [] s
    else if goodOpen r then reply src 0x06 statusDone [] (openVehicle r s)
    else outOfRange src 0x06 s

/-- VEHICLE_OPEN (R73, R159). -/
def execVehicleOpen (s : State) : Host.Outcome State Fault Refusal := .next (onRequest 0x06 takeVehicleOpen s)

/-- The count of cancelled vehicles (R174). -/
def countCancelled (s : State) : State := s.count fun c => { c with cancelled := c.cancelled + 1 }

/-- What a cancel does to the lane (R74), judged after the cancel's own stops: a side they brought to STOPPED counts
as STOPPED (the model's choice, log entry 57). -/
def laneAfterCancel (s : State) : State :=
  match s.lane.state with
  | .off | .idle | .manual | .exit => s
  | .halted =>
    if bothStopped s then s.setLane fun l => { l with remembered := some .exit }
    else s.setLane fun l => { l with exitWait := true }
  | .entry | .testing | .pausing | .paused =>
    if bothStopped s then enterExit .cancel s else s.setLane fun l => { l with exitWait := true }

/-- A VEHICLE_CANCEL with a vehicle open (R74, R105). -/
def cancelVehicle (src : Nat) (s : State) : State :=
  let t := countCancelled (discardWith .cancel (laneStopBoth (clearEngine s)).1)
  let u := t.setLane fun l => { l with causes := onlyEstop l.causes }
  laneAfterCancel (reply src 0x07 statusDone [] u)

/-- A VEHICLE_CANCEL request (R74). -/
def takeVehicleCancel (src : Nat) (l : List Byte) (s : State) : State :=
  if l ≠ [] then malformed src 0x07 s
  else if s.vehicle.isNone then reply src 0x07 statusRefused [] s
  else cancelVehicle src s

/-- VEHICLE_CANCEL (R74). -/
def execVehicleCancel (s : State) : Host.Outcome State Fault Refusal := .next (onRequest 0x07 takeVehicleCancel s)

/-! ### Lane reset (R85) -/

/-- A side whose START was emptied out of the head queue (R106, R109; log entry 37). -/
def emptiedSide (sd : Side) (s : State) : State :=
  if startQueued sd s then
    let r := s.roller sd
    s.setRoller sd (if r.state == .spinningUp then { r.stopAs .stopped with outstanding := false }
      else { r with outstanding := false })
  else s

/-- Item 1 of R85: the transmit queues and the batches emptied; the oldest certificate is due again (R168). -/
def emptyQueues (s : State) : State :=
  let t := emptiedSide .right (emptiedSide .left s)
  discardBatches
    { t with head := { t.head with queue := [] }, station := { t.station with queue := [] },
             certs := { t.certs with due := t.certs.due || !t.certs.queue.isEmpty } }

/-- Items 3 and 4 of R85, and the pending-guide register emptied (R103). -/
def resetVehicle (s : State) : State :=
  let t := if s.vehicle.isSome then countCancelled (discard s) else s
  let u := t.setEngine fun e => { e with pendingGuide := none }
  u.setLane fun l =>
    { l with causes := PauseCauses.empty, remembered := none, autoTest := .clear, exitWait := false }

/-- A LANE_RESET (R85). -/
def laneReset (src : Nat) (s : State) : State :=
  let s1 := resetVehicle (laneStopBoth (emptyQueues s)).1
  let s2 := stopCadences (s1.setLane fun l => { l with state := .off })
  let s3 := if s.lane.state == .off then s2 else syncBroadcast .streamOff .sequence s2
  let s4 := applyPending .laneReset s3
  certSendIfRoom (laneStateNotice s.lane.state .laneReset (reply src 0x08 statusDone [] s4))

/-- A LANE_RESET request (R85). -/
def takeLaneReset (src : Nat) (l : List Byte) (s : State) : State :=
  if l ≠ [] then malformed src 0x08 s else laneReset src s

/-- LANE_RESET (R10, R85). -/
def execLaneReset (s : State) : Host.Outcome State Fault Refusal := .next (onRequest 0x08 takeLaneReset s)

end Sys2Proof.Machine
end

