-- ==== Sys2Proof/Machine/Timed.lean ====
section
/-! DEFINITION. The commands of time: tick issues and the rows that name what a tick close does (02, 05,
06, 07), the lane millisecond and what falls due at it (10), and the reference step. -/

namespace Sys2Proof.Machine

/-- TICK_ISSUE (R25, R26). -/
def execTickIssue (c : Cadence) (o : CloseOrder) (s : State) : Host.Outcome State Fault Refusal :=
  .next (tickEvent c o s).1

/-- QUANTITY_STALE (R34, R35): the tick issue whose close makes the quantity STALE. -/
def execQuantityStale (q : Quantity) (o : CloseOrder) (s : State) : Host.Outcome State Fault Refusal :=
  .next (whenTrace (cadenceOfQuantity s q) o (fun t => t.stale.contains q) s)

/-- LOCK (R117, R118): the tick issue of A whose close locks the side. -/
def execLock (sd : Side) (o : CloseOrder) (s : State) : Host.Outcome State Fault Refusal :=
  .next (whenTrace .a o (fun t => t.locked.get sd) s)

/-- RELEASE (R130): the tick issue of A whose close ends the side by release. -/
def execRelease (sd : Side) (o : CloseOrder) (s : State) : Host.Outcome State Fault Refusal :=
  .next (whenTrace .a o (fun t => t.released.get sd) s)

/-- REVOLUTION_CARRY (R123, R124): the tick issue of A whose close makes a carry of the side. -/
def execRevolutionCarry (sd : Side) (o : CloseOrder) (s : State) : Host.Outcome State Fault Refusal :=
  .next (whenTrace .a o (fun t => t.carried.get sd) s)

/-- PRESENCE_COUNT_REACHED (R90): the tick issue of B whose close ends AXLE_IN or AXLE_OUT. -/
def execPresenceCountReached (o : CloseOrder) (s : State) : Host.Outcome State Fault Refusal :=
  .next (whenTrace .b o (fun t => t.presence) s)

/-- GUIDE_BARS (R104): the tick issue of A whose close offers a bar frame. -/
def execGuideBars (o : CloseOrder) (s : State) : Host.Outcome State Fault Refusal :=
  .next (whenTrace .a o (fun t => t.bars) s)

/-- LANE_MILLISECOND (R172, R173, R97, R110). -/
def execLaneMillisecond (s : State) : Host.Outcome State Fault Refusal := .next (millisecond s)

/-- STEP_TIMEOUT (R97 to R100). -/
def execStepTimeout (s : State) : Host.Outcome State Fault Refusal := .next (timeoutExpiry s)

/-- SPIN_UP_WINDOW_EXPIRY (R114). -/
def execSpinUpWindowExpiry (sd : Side) (s : State) : Host.Outcome State Fault Refusal :=
  .next (spinUpWindowEnds sd s)

/-- HELD_START_PERMITTED (R110). -/
def execHeldStartPermitted (sd : Side) (s : State) : Host.Outcome State Fault Refusal := .next (heldTest sd s)

/-- HISTORY_ENTRY_AGED (R107). -/
def execHistoryEntryAged (sd : Side) (s : State) : Host.Outcome State Fault Refusal := .next (ageHistory sd s)

/-- CERT_RESEND_DUE (R168). -/
def execCertResendDue (s : State) : Host.Outcome State Fault Refusal := .next (resendDue s)

/-- CERT_SEND (R167). -/
def execCertSend (s : State) : Host.Outcome State Fault Refusal := .next (certSendIfRoom s)

/-- PENDING_GUIDE_OFFER (R103). -/
def execPendingGuideOffer (s : State) : Host.Outcome State Fault Refusal := .next (pendingGuideOffered s)

/-- REFERENCE_STEP (R22, R172). -/
def execReferenceStep (s : State) : Host.Outcome State Fault Refusal := .next (referenceStep s)

end Sys2Proof.Machine
end

