-- ==== Sys2Proof/Machine/Dispatch.lean ====
section
/-! DEFINITION. One arm per command: each calls its own meaning. -/

namespace Sys2Proof.Machine

def exec (i : Instr) (s : State) : Host.Outcome State Fault Refusal :=
  match i with
  | .powerOnReset => Sys2Proof.Machine.execPowerOnReset s
  | .reception p line => Sys2Proof.Machine.execReception p line s
  | .sendBegin p => Sys2Proof.Machine.execSendBegin p s
  | .stationSendCompletion => Sys2Proof.Machine.execStationSendCompletion s
  | .headSendCompletion => Sys2Proof.Machine.execHeadSendCompletion s
  | .misdirectedFrame p => Sys2Proof.Machine.execMisdirectedFrame p s
  | .forwardedFrame p => Sys2Proof.Machine.execForwardedFrame p s
  | .sampleFrame => Sys2Proof.Machine.execSampleFrame s
  | .statusFrame => Sys2Proof.Machine.execStatusFrame s
  | .stationStart => Sys2Proof.Machine.execStationStart s
  | .stationStop => Sys2Proof.Machine.execStationStop s
  | .unknownRequest => Sys2Proof.Machine.execUnknownRequest s
  | .tableWrite => Sys2Proof.Machine.execTableWrite s
  | .tableRead => Sys2Proof.Machine.execTableRead s
  | .bankSwitchApply => Sys2Proof.Machine.execBankSwitchApply s
  | .bankSwitchCancel => Sys2Proof.Machine.execBankSwitchCancel s
  | .bankStatus => Sys2Proof.Machine.execBankStatus s
  | .goIdle => Sys2Proof.Machine.execGoIdle s
  | .goOff => Sys2Proof.Machine.execGoOff s
  | .goManual => Sys2Proof.Machine.execGoManual s
  | .goEntry => Sys2Proof.Machine.execGoEntry s
  | .goTest => Sys2Proof.Machine.execGoTest s
  | .goEntryToTest => Sys2Proof.Machine.execGoEntryToTest s
  | .goPause => Sys2Proof.Machine.execGoPause s
  | .goResume => Sys2Proof.Machine.execGoResume s
  | .vehicleOpen => Sys2Proof.Machine.execVehicleOpen s
  | .vehicleCancel => Sys2Proof.Machine.execVehicleCancel s
  | .laneReset => Sys2Proof.Machine.execLaneReset s
  | .cadenceSet => Sys2Proof.Machine.execCadenceSet s
  | .syncRequestZero => Sys2Proof.Machine.execSyncRequestZero s
  | .syncRequestStreamOn => Sys2Proof.Machine.execSyncRequestStreamOn s
  | .syncRequestStreamOff => Sys2Proof.Machine.execSyncRequestStreamOff s
  | .syncRequestHeadRestart => Sys2Proof.Machine.execSyncRequestHeadRestart s
  | .countersLatch => Sys2Proof.Machine.execCountersLatch s
  | .statusRead => Sys2Proof.Machine.execStatusRead s
  | .logRead => Sys2Proof.Machine.execLogRead s
  | .certAck => Sys2Proof.Machine.execCertAck s
  | .certNumberSet => Sys2Proof.Machine.execCertNumberSet s
  | .tickIssue c o => Sys2Proof.Machine.execTickIssue c o s
  | .quantityStale q o => Sys2Proof.Machine.execQuantityStale q o s
  | .lock sd o => Sys2Proof.Machine.execLock sd o s
  | .release sd o => Sys2Proof.Machine.execRelease sd o s
  | .revolutionCarry sd o => Sys2Proof.Machine.execRevolutionCarry sd o s
  | .presenceCountReached o => Sys2Proof.Machine.execPresenceCountReached o s
  | .guideBars o => Sys2Proof.Machine.execGuideBars o s
  | .laneMillisecond => Sys2Proof.Machine.execLaneMillisecond s
  | .stepTimeout => Sys2Proof.Machine.execStepTimeout s
  | .spinUpWindowExpiry sd => Sys2Proof.Machine.execSpinUpWindowExpiry sd s
  | .heldStartPermitted sd => Sys2Proof.Machine.execHeldStartPermitted sd s
  | .historyEntryAged sd => Sys2Proof.Machine.execHistoryEntryAged sd s
  | .certResendDue => Sys2Proof.Machine.execCertResendDue s
  | .certSend => Sys2Proof.Machine.execCertSend s
  | .pendingGuideOffer => Sys2Proof.Machine.execPendingGuideOffer s
  | .startDelimiterSeen p => Sys2Proof.Machine.execStartDelimiterSeen p s
  | .referenceStep => Sys2Proof.Machine.execReferenceStep s

end Sys2Proof.Machine
end

