-- ==== Sys2Proof/Safety.lean ====
section
/-! DEFINITION. What the rules promise of every state: no roller started under an emergency stop (R120), the
two urgent places never for one side (R7), no frame waiting at an idle transmitter (R6, R8), and every store
within its capacity (R4, R5, R107, R166, R179);
and the words the statements use for a frame at the front of a FIFO and for rows taken one after another. -/

namespace Sys2Proof.Machine

/-- A roller side that is neither started nor waiting to be: STOPPED or COASTING. -/
def RollerSide.still (r : RollerSide) : Bool := r.state == .stopped || r.state == .coasting

/-- No side is SPINNING_UP, RUNNING or HELD while the emergency-stop flag is set (R120). -/
def estopSafe (s : State) : Prop :=
  s.rollers.estop = true → s.rollers.sides.left.still = true ∧ s.rollers.sides.right.still = true

/-- The urgent slot and the queue head place never hold STOPs for the same side (R7). -/
def placesDiffer (s : State) : Prop :=
  ∀ a b, s.urgent = some a → s.headPlace = some b → a.side ≠ b.side

/-- Nothing waits for a port's transmitter: its transmit queue is empty, and at the head port both urgent places
are too (R6, R8). -/
def nothingWaits (s : State) : Port → Prop
  | .head => s.head.queue = [] ∧ s.urgent = none ∧ s.headPlace = none
  | .station => s.station.queue = []

/-- A port's transmitter is idle and nothing waits for it: an accepted frame is taken at once (R6, R8). -/
def quiet (s : State) (p : Port) : Prop := (s.port p).tx = .idle ∧ nothingWaits s p

/-- A transmitter is idle only while nothing waits for it (R6, R8). -/
def idleWaitsForNothing (s : State) : Prop := ∀ p, (s.port p).tx = .idle → nothingWaits s p

/-- The receive FIFOs and transmit queues hold no more frames than their capacities (R4, R5). -/
def portsFit (s : State) : Prop :=
  s.head.fifo.length ≤ 32 ∧ s.station.fifo.length ≤ 16 ∧ s.head.queue.length ≤ 16 ∧ s.station.queue.length ≤ 32

/-- The certificate queue, the Sync Log and the start histories hold no more than their rules allow, and each
of the sixteen quantities has its place (R107, R166, R179; 02, section 2.2). -/
def logsFit (s : State) : Prop :=
  s.certs.queue.length ≤ 4 ∧ s.syncLog.entries.length ≤ 32 ∧ s.syncLog.overflow ≤ 65535 ∧
    s.rollers.sides.left.history.length ≤ 4 ∧ s.rollers.sides.right.history.length ≤ 4 ∧
    s.quantities.length = 16

/-- While a vehicle is open, live time plus hold time is the lane time less its open lane time, modulo 2³² (R173). -/
def timesAgree (s : State) : Prop :=
  ∀ v, s.vehicle = some v → s.clock.live + s.clock.hold = s.clock.laneTime - v.openTime

/-- The state without the oldest frame of a port's receive FIFO: the Router has taken it (R12). -/
def State.dropFirst (s : State) (p : Port) : State := s.setPort p { s.port p with fifo := (s.port p).fifo.tail }

/-- A management request of the lane station or the printer station with a payload (R18). -/
def isRequest (f : Frame) (payload : List Byte) : Bool :=
  isStation f.src && f.dst == 0 && f.kind == kindMgmt && f.payload == payload

/-- A COMMAND of a station node for the working drive cabinet with a payload (R19). -/
def isCabinetCommand (s : State) (f : Frame) (payload : List Byte) : Bool :=
  isStation f.src && f.kind == kindCommand && isHead f.dst && cabinetNode s == some f.dst.toNat
    && f.payload == payload

/-- A STATUS of the working drive cabinet with its five bytes (R16). -/
def isCabinetStatus (s : State) (f : Frame) (payload : List Byte) : Bool :=
  isHead f.src && f.dst == 0 && f.kind == kindStatus && cabinetNode s == some f.src.toNat
    && f.payload == payload && f.payload.length == 5

/-- The oldest frame of the station FIFO is a management request with a payload (R12, R18). -/
def State.asks (s : State) (f : Frame) (payload : List Byte) : Prop :=
  s.station.fifo.head? = some f ∧ isRequest f payload = true

/-- The row of a GO request. -/
def goInstr : GoRequest → Instr
  | .idle => .goIdle | .off => .goOff | .manual => .goManual | .entry => .goEntry | .test => .goTest
  | .entryToTest => .goEntryToTest | .pause => .goPause | .resume => .goResume

/-- The lane states a GO request is taken in (R66). -/
def goStates : GoRequest → List LaneState
  | .idle => [.off] | .off => [.idle, .manual] | .manual => [.idle] | .entry | .entryToTest => [.idle]
  | .test => [.entry] | .pause => [.testing] | .resume => [.pausing, .paused, .halted]

/-- The row of a sync request; TARE is none (R178). -/
def syncInstr : SyncCode → Option Instr
  | .zero => some .syncRequestZero | .streamOn => some .syncRequestStreamOn
  | .streamOff => some .syncRequestStreamOff | .headRestart => some .syncRequestHeadRestart | .tare => none

/-- The Sync Log after an entry was offered to it at the present lane time (R179). -/
def State.logged (s : State) (code : SyncCode) (source : SyncSource) : SyncLog :=
  if s.syncLog.entries.length < 32 then
    { s.syncLog with entries := s.syncLog.entries ++ [{ time := s.now, code, source }] }
  else { s.syncLog with overflow := min (s.syncLog.overflow + 1) 65535 }

/-- A tick issue of a cadence is due, and closes its open tick (R25). -/
def closesTick (s : State) (c : Cadence) (x : OpenTick) : Prop :=
  (s.cad c).running = true ∧ (s.cad c).carryDue = true ∧ (s.cad c).openTick = some x

/-- The state in which the close of a due tick issue is taken: the carry and the open tick are used up. -/
def State.atClose (s : State) (c : Cadence) : State :=
  s.setCad c { s.cad c with carryDue := false, openTick := none }

/-- Rows taken one after another. -/
def runRows : List Instr → State → State
  | [], s => s
  | i :: rest, s =>
    match exec i s with
    | .next t => runRows rest t
    | .fault _ => runRows rest s
    | .refused _ => runRows rest s

/-- What acts at a lane millisecond (R97, R107, R110, R114, R168). -/
def millisecondWork : List Instr :=
  [.stepTimeout, .spinUpWindowExpiry .left, .spinUpWindowExpiry .right, .heldStartPermitted .left,
   .heldStartPermitted .right, .historyEntryAged .left, .historyEntryAged .right, .certResendDue]

/-- The rows a reference step takes when they were not commanded: the tick issues, the lane millisecond with what
acts at it, and the offers that waited for a place (R103, R167, R172; log entries 2, 3 and 6). -/
def waitingRows (s : State) : List Instr :=
  let ticks : List Instr := [.tickIssue .a .clearanceLast, .tickIssue .b .clearanceLast]
  (if s.clock.msDue then ticks ++ .laneMillisecond :: millisecondWork
   else if s.clock.micro = 0 then millisecondWork ++ ticks
   else ticks) ++ [.certSend, .pendingGuideOffer]

/-- The other side. -/
def otherSide : Side → Side
  | .left => .right
  | .right => .left

end Sys2Proof.Machine
end

