-- ==== Sys2Proof/WellFormed.lean ====
section
/-! DEFINITION. Which commands are well formed: a reception's line is one that a receiver can have taken. -/

namespace Sys2Proof

/-- No delimiter (F2 or F3 hex) stands before the last byte: the first one ends the reception (R1, R183). -/
def delimiterLast : List Byte → Bool
  | [] => true
  | [_] => true
  | b :: rest => b != 0xF2 && b != 0xF3 && delimiterLast rest

/-- The most bytes a reception takes after its start delimiter: 127 frame bytes as escape pairs end it by
length at the latest (R1, R183). -/
def longestLine : Nat := 254

/-- A command that the outside can bring about. -/
def wellFormed : Instr → Bool
  | .reception _ line => delimiterLast line && decide (line.length ≤ longestLine)
  | .powerOnReset | .sendBegin _ | .stationSendCompletion | .headSendCompletion | .misdirectedFrame _
  | .forwardedFrame _ | .sampleFrame | .statusFrame | .stationStart | .stationStop | .unknownRequest
  | .tableWrite | .tableRead | .bankSwitchApply | .bankSwitchCancel | .bankStatus | .goIdle | .goOff
  | .goManual | .goEntry | .goTest | .goEntryToTest | .goPause | .goResume | .vehicleOpen
  | .vehicleCancel | .laneReset | .cadenceSet | .syncRequestZero | .syncRequestStreamOn
  | .syncRequestStreamOff | .syncRequestHeadRestart | .countersLatch | .statusRead | .logRead | .certAck
  | .certNumberSet | .tickIssue _ _ | .quantityStale _ _ | .lock _ _ | .release _ _
  | .revolutionCarry _ _ | .presenceCountReached _ | .guideBars _ | .laneMillisecond | .stepTimeout
  | .spinUpWindowExpiry _ | .heldStartPermitted _ | .historyEntryAged _ | .certResendDue | .certSend
  | .pendingGuideOffer | .startDelimiterSeen _ | .referenceStep => true

end Sys2Proof
end

