-- ==== Sys2Proof/Certificates/Slice0/Obligations.lean ====
section
/-! DEFINITION. The statements about the EG-460, for the provers. Each says in its docstring which rule it
rests on. In all of them the offers that a freed place makes (R103, R167) are rows of their own (log entry 6). -/

open Sys2Proof Sys2Proof.Machine

/-! ### The step and the reset -/

/-- A step takes the command at the front of the queue and runs it on the state with the queue's rest; on an
empty queue the part idles (the model's choice, log entry 1). -/
def Obligations.StepRunsFrontCommand : Prop :=
  ∀ s : State,
    (∀ c rest, s.pending = c :: rest → step s = exec c { s with pending := rest }) ∧
    (s.pending = [] → step s = .next s)

/-- POWER_ON_RESET gives every block the values its rule states after power-on reset (R11, R24, R46, R49, R65,
R87, R106, R125, R147, R159, R163, R171, R172, R174, R175, R179): the side marks are clear and the delivery
state holds nothing among them; the commands that wait are kept (log entry 35). -/
def Obligations.PowerOnResetValues : Prop :=
  ∀ s : State, ∃ t, exec .powerOnReset s = .next t ∧ t.pending = s.pending ∧
    (∀ p, (t.port p).rx = .idle ∧ (t.port p).fifo = [] ∧ (t.port p).queue = [] ∧ (t.port p).tx = .idle) ∧
    t.urgent = none ∧ t.headPlace = none ∧ t.live = Counters.zero ∧ t.latched = Counters.zero ∧
    t.latchTime = none ∧
    (∀ c, (t.cad c).acc = 0 ∧ (t.cad c).tick = 0 ∧ (t.cad c).running = false ∧ (t.cad c).openTick = none) ∧
    t.cadA.rate = 200 ∧ t.cadA.inc = 858993 ∧ t.cadB.rate = 20 ∧ t.cadB.inc = 85899 ∧
    (∀ q, (t.qty q).lastRaw = none ∧ (t.qty q).lastConv = none ∧ (t.qty q).tare = 0 ∧ (t.qty q).missing = 0 ∧
      (t.qty q).stale = false ∧ (t.qty q).pendingRaw = none ∧ (t.qty q).firstSample = false ∧
      (t.qty q).phase = 0 ∧ (t.qty q).batch.values = []) ∧
    t.working = Bank.empty ∧ { t.shadow with settings := none } = Bank.empty ∧
    t.shadow.settings = some LaneSettings.powerOn ∧ t.banks.valid = false ∧ t.banks.generation = 0 ∧
    t.banks.switchPending = false ∧ t.banks.modified = false ∧ t.banks.last = .none ∧
    t.lane = { state := .off, remembered := none, causes := PauseCauses.empty, autoTest := .clear,
               exitWait := false, rezeroCount := 0 } ∧
    t.engine.plan = none ∧ t.engine.step = none ∧ t.engine.axle = 0 ∧ t.engine.phase = .none ∧
    t.engine.attempt = 1 ∧ t.engine.elapsed = 0 ∧ t.engine.presence = 0 ∧ t.engine.barPhase = 0 ∧
    t.engine.marks = { left := .clear, right := .clear } ∧ t.engine.pendingGuide = none ∧
    t.rollers.estop = false ∧
    (∀ sd, (t.roller sd).state = .stopped ∧ (t.roller sd).outstanding = false ∧ (t.roller sd).sendTime = none ∧
      (t.roller sd).history = [] ∧ (t.roller sd).held = none ∧ (t.roller sd).slip = 0 ∧
      (t.roller sd).watch = none ∧ (t.roller sd).acc = 0 ∧ (t.roller sd).increment = 0 ∧
      (t.roller sd).window = 0 ∧ (t.roller sd).contactor = false ∧ (t.roller sd).overtemp = false) ∧
    t.eval = Evaluator.reset ∧ t.plate = PlateUnit.reset ∧ t.vehicle = none ∧ t.certs.number = 0 ∧
    t.certs.queue = [] ∧ t.certs.due = false ∧ t.certs.sendCount = 0 ∧ t.certs.lastSend = none ∧
    t.clock.laneTime = 0 ∧ t.clock.live = 0 ∧ t.clock.hold = 0 ∧
    t.syncLog.entries = [] ∧ t.syncLog.overflow = 0

/-- The state after power-on reset keeps every promise of the invariants below. -/
def Obligations.ResetKeepsPromises : Prop :=
  estopSafe State.reset ∧ placesDiffer State.reset ∧ portsFit State.reset ∧ logsFit State.reset ∧
    timesAgree State.reset ∧ idleWaitsForNothing State.reset

/-! ### Ports and Router (01) -/

/-- Every frame as the part or a node puts it on the line is read back as that frame: at the end of its
reception it joins the tail of the receive FIFO, or is lost to a full one, and nothing else changes but the
frames-in count (R1 to R4, R183). -/
def Obligations.GoodFrameJoinsFifo : Prop :=
  ∀ (p : Port) (f : Frame) (s : State), (s.port p).rx = .receiving → f.payload.length ≤ 120 →
    f.check = crc16 (checkedBytes f.dst f.src f.kind f.payload) →
    exec (.reception p (escapeBytes (frameBytes f) ++ [0xF3])) s =
      .next (if (s.port p).fifo.length < fifoCap p then
          (s.setPort p { s.port p with rx := .idle, fifo := (s.port p).fifo ++ [f] }).countPort p
            fun c => { c with framesIn := c.framesIn + 1 }
        else
          (s.setPort p { s.port p with rx := .idle }).countPort p
            fun c => { c with framesIn := c.framesIn + 1, rxOverrun := c.rxOverrun + 1 })

/-- A reception that passes the framing check and has too few bytes, a declared length above 120 or a length
that disagrees is discarded, whatever its check value, and the length error count advances (R2). -/
def Obligations.LengthErrorCounted : Prop :=
  ∀ (p : Port) (l : List Byte) (s : State), (s.port p).rx = .receiving → l.length ≤ 126 →
    (l.length < 6 ∨ 120 < (l.getD 3 0).toNat ∨ l.length ≠ (l.getD 3 0).toNat + 6) →
    exec (.reception p (escapeBytes l ++ [0xF3])) s =
      .next ((s.setPort p { s.port p with rx := .idle }).countPort p
        fun c => { c with framesIn := c.framesIn + 1, length := c.length + 1 })

/-- A reception of good length whose check value is not the CRC-16 of its bytes is counted as a check-value
error (R3); one that breaks off is counted as a framing error, with the receiver left as R1 and R183 say:
idle on an idle line, receiving after a second start delimiter, ignoring after excess length until a start
delimiter begins the next reception, and ignoring after a bad escape (the model's reading, log entry 9). -/
def Obligations.BrokenReceptionsCounted : Prop :=
  ∀ (p : Port) (l : List Byte) (s : State), (s.port p).rx = .receiving →
    (l.length ≤ 126 → 6 ≤ l.length → (l.getD 3 0).toNat ≤ 120 → l.length = (l.getD 3 0).toNat + 6 →
      crc16 (l.take (l.length - 2)) ≠ BitVec.ofNat 16 (readNat (l.drop (l.length - 2))) →
      exec (.reception p (escapeBytes l ++ [0xF3])) s =
        .next ((s.setPort p { s.port p with rx := .idle }).countPort p
          fun c => { c with framesIn := c.framesIn + 1, checkValue := c.checkValue + 1 })) ∧
    (∀ tail rx, (l.length ≤ 126 ∧ tail = [] ∧ rx = .idle ∨ l.length ≤ 126 ∧ tail = [0xF2] ∧ rx = .receiving ∨
        l.length = 127 ∧ tail = [] ∧ rx = .ignoring ∨ l.length = 127 ∧ tail = [0xF2] ∧ rx = .receiving ∨
        l.length ≤ 126 ∧ (∃ e : Byte, tail = [0xF1, e] ∧ ¬ e ∈ [0xE1, 0xE2, 0xE3, 0xF2, 0xF3]) ∧ rx = .ignoring) →
      exec (.reception p (escapeBytes l ++ tail)) s =
        .next ((s.setPort p { s.port p with rx }).countPort p
          fun c => { c with framesIn := c.framesIn + 1, framing := c.framing + 1 }))

/-- A start delimiter begins a reception, or is the second one of a reception, which ends in a framing error
while the next begins; a taken frame goes on the line with its escapes between the delimiters; a station send
completion advances frames-out and takes the head of the queue; a head send completion that is no START of the
part takes the urgent slot, then the queue head place, then the head of the transmit queue, and advances
frames-out (R1, R6, R8, R183). One of a START of the part takes the next frame in the same order, and is recorded for
its side: the START ceases to be outstanding, its time joins the head of the history of at most four, and opens the
spin-up window of a side still SPINNING_UP; the other side and every other block is as before (R8, R107, R109). A pending guidance message and a due certificate are
not offered within these events: their offers to the freed place (R103, R167) are rows of their own, the model's
reading (log entry 6). -/
def Obligations.SendsBeginAndComplete : Prop :=
  (∀ (p : Port) (s : State),
    ((s.port p).rx ≠ .receiving →
      exec (.startDelimiterSeen p) s = .next (s.setPort p { s.port p with rx := .receiving })) ∧
    ((s.port p).rx = .receiving →
      exec (.startDelimiterSeen p) s =
        .next (s.countPort p fun c => { c with framesIn := c.framesIn + 1, framing := c.framing + 1 }))) ∧
  (∀ (p : Port) (f : Frame) (s : State), (s.port p).tx = .taken f →
    exec (.sendBegin p) s =
      .next (s.setPort p { s.port p with tx := .sending f (0xF2 :: (escapeBytes (frameBytes f) ++ [0xF3])) })) ∧
  (∀ (f : Frame) (line : List Byte) (s : State), s.station.tx = .sending f line →
    exec .stationSendCompletion s =
      .next ({ s with station := { s.station with
                tx := match s.station.queue with
                  | [] => .idle
                  | g :: _ => .taken g,
                queue := s.station.queue.tail } }.countPort .station
          fun c => { c with framesOut := c.framesOut + 1 })) ∧
  (∀ (f : Frame) (line : List Byte) (s : State), s.head.tx = .sending f line →
    isStart .left f = false → isStart .right f = false →
    exec .headSendCompletion s =
      .next ((match s.urgent, s.headPlace, s.head.queue with
          | some w, _, _ => { s with urgent := none, head := { s.head with tx := .taken w.frame } }
          | none, some w, _ => { s with headPlace := none, head := { s.head with tx := .taken w.frame } }
          | none, none, g :: rest => { s with head := { s.head with tx := .taken g, queue := rest } }
          | none, none, [] => { s with head := { s.head with tx := .idle } } : State).countPort .head
        fun c => { c with framesOut := c.framesOut + 1 })) ∧
  (∀ (f : Frame) (line : List Byte) (sd : Side) (s : State), s.head.tx = .sending f line → isStart sd f = true →
    ∃ t, exec .headSendCompletion s = .next t ∧
      t.roller sd = { s.roller sd with
        outstanding := false, history := ({ time := s.now, aged := false } :: (s.roller sd).history).take 4,
        sendTime := if (s.roller sd).state = .spinningUp then some s.now else (s.roller sd).sendTime } ∧
      t.roller (otherSide sd) = s.roller (otherSide sd) ∧ t.rollers.estop = s.rollers.estop ∧
      t.live = { s.live with head := { s.live.head with framesOut := s.live.head.framesOut + 1 } } ∧
      (t.urgent, t.headPlace, t.head) = (match s.urgent, s.headPlace, s.head.queue with
        | some w, place, _ => (none, place, { s.head with tx := .taken w.frame })
        | none, some w, _ => (none, none, { s.head with tx := .taken w.frame })
        | none, none, g :: rest => (none, none, { s.head with tx := .taken g, queue := rest })
        | none, none, [] => (none, none, { s.head with tx := .idle })) ∧
      t = { s with head := t.head, urgent := t.urgent, headPlace := t.headPlace, rollers := t.rollers, live := t.live })

/-- A frame with a bad address or a kind that does not fit its port is discarded and counted as misdirected
(R13, R14), and so are a STATUS of another head than the drive cabinet or with no valid bank, and a COMMAND with no
valid bank (R16, R19). A foreign frame across the part, and a COMMAND for another head than the drive cabinet or with
another code than START and STOP (or with none: the model's choice, log entry 41), is offered unchanged to the opposite
port: an idle transmitter for which nothing waits takes it at once, and at a busy one it joins the tail of the queue, or
is counted as a transmit overrun when the queue is full (R5, R6, R8, R19, R20). -/
def Obligations.FramesDiscardedOrForwarded : Prop :=
  (∀ (p : Port) (f : Frame) (rest : List Frame) (s : State), (s.port p).fifo = f :: rest →
    (p = .head ∧ ¬ (1 ≤ f.src.toNat ∧ f.src.toNat ≤ 47) ∨ p = .station ∧ f.src ≠ 61 ∧ f.src ≠ 62 ∨
      (48 ≤ f.dst.toNat ∧ f.dst.toNat ≤ 60) ∨ 63 ≤ f.dst.toNat ∨
      p = .head ∧ 1 ≤ f.dst.toNat ∧ f.dst.toNat ≤ 47 ∨ p = .station ∧ (f.dst = 61 ∨ f.dst = 62) ∨
      f.kind ∈ [0x01, 0x05, 0x06, 0x07, 0x08, 0x09, 0x0B, 0x0C] ∨
      (f.kind = 0x02 ∨ f.kind = 0x03) ∧ (p = .station ∨ f.dst ≠ 0) ∨
      f.kind = 0x03 ∧ (s.banks.valid = false ∨ cabinetNode s ≠ some f.src.toNat) ∨
      f.kind = 0x0A ∧ (p = .head ∨ f.dst ≠ 0) ∨ f.kind = 0x04 ∧ (p = .head ∨ f.dst = 0 ∨ s.banks.valid = false) ∨
      f.dst = 0 ∧ (f.kind = 0 ∨ 0x0C < f.kind.toNat)) →
    exec (.misdirectedFrame p) s =
      .next ((s.dropFirst p).countPort p fun c => { c with misdirected := c.misdirected + 1 })) ∧
  (∀ (p : Port) (f : Frame) (rest : List Frame) (s : State), (s.port p).fifo = f :: rest →
    ((f.kind = 0 ∨ 0x0C < f.kind.toNat) ∧
        (p = .head ∧ isHead f.src = true ∧ isStation f.dst = true ∨
          p = .station ∧ isStation f.src = true ∧ isHead f.dst = true) ∨
      p = .station ∧ isStation f.src = true ∧ isHead f.dst = true ∧ f.kind = 0x04 ∧
        (∃ n, cabinetNode s = some n ∧ (f.dst.toNat ≠ n ∨ f.payload.head? ≠ some 0x01 ∧ f.payload.head? ≠ some 0x02))) →
    (quiet s (otherPort p) → exec (.forwardedFrame p) s =
      .next ((s.dropFirst p).setPort (otherPort p) { s.port (otherPort p) with tx := .taken f })) ∧
    ((s.port (otherPort p)).tx ≠ .idle → exec (.forwardedFrame p) s =
      .next (if (s.port (otherPort p)).queue.length < queueCap (otherPort p) then
          (s.dropFirst p).setPort (otherPort p)
            { s.port (otherPort p) with queue := (s.port (otherPort p)).queue ++ [f] }
        else (s.dropFirst p).countPort (otherPort p) fun c => { c with txOverrun := c.txOverrun + 1 })))

/-- A STOP offered at a busy head port: the waiting STARTs of its side, and no other frame, leave the transmit
queue; a waiting STOP of the side stands; otherwise the urgent slot takes it when empty, else the queue head
place; the flag tells whether a START was removed (R7, R9). That the offer of a pending guidance message to a place
so freed (R103) is a row of its own is the model's reading (log entry 6). An idle transmitter for which nothing waits
takes the STOP at once, with all three places still empty and no START removed (R7, R8). -/
def Obligations.StopTakesItsPlace : Prop :=
  (∀ (sd : Side) (s : State), quiet s .head → offerStop sd s =
    ({ s with head := { s.head with tx := .taken (stopFrame ((cabinetNode s).getD 0) sd) } }, false)) ∧
  (∀ (sd : Side) (s : State), s.head.tx ≠ .idle →
    let r := offerStop sd s
    let w : WaitingStop := { side := sd, frame := stopFrame ((cabinetNode s).getD 0) sd }
    let waits := s.urgent.any (·.side == sd) || s.headPlace.any (·.side == sd)
    r.1.head = { s.head with queue := s.head.queue.filter fun f => !isStart sd f } ∧
    r.2 = s.head.queue.any (isStart sd) ∧
    r.1.urgent = (if waits = false ∧ s.urgent = none then some w else s.urgent) ∧
    r.1.headPlace = (if waits = false ∧ s.urgent ≠ none then some w else s.headPlace) ∧
    r.1.roller (otherSide sd) = s.roller (otherSide sd) ∧
    r.1 = { s with head := r.1.head, urgent := r.1.urgent, headPlace := r.1.headPlace, rollers := r.1.rollers })

/-- A frame offered to a port: at a busy transmitter it joins the tail of the queue, or is refused by a full one; an
idle transmitter for which nothing waits takes it at once, and nothing is left waiting (R5, R6, R8). A reply and a
notice are so offered to the station port as frames of the part; refused, a reply is dropped and counted as such, and
a notice is counted as a transmit overrun (R5, R182, R185). -/
def Obligations.RepliesAndNoticesOffered : Prop :=
  (∀ (p : Port) (f : Frame) (s : State),
    (quiet s p → offer p f s = (s.setPort p { s.port p with tx := .taken f }, true)) ∧
    ((s.port p).tx ≠ .idle → offer p f s =
      if (s.port p).queue.length < queueCap p then
        (s.setPort p { s.port p with queue := (s.port p).queue ++ [f] }, true)
      else (s, false))) ∧
  (∀ (src : Nat) (code status : Byte) (content : List Byte) (s : State), quiet s .station →
    reply src code status content s =
      { s with station := { s.station with tx := .taken (originate src 0x0B (code :: status :: content)) } } ∧
    notice code content s =
      { s with station := { s.station with tx := .taken (originate 62 0x09 (code :: content)) } }) ∧
  (∀ (src : Nat) (code status : Byte) (content : List Byte) (s : State), s.station.tx ≠ .idle →
    reply src code status content s =
      (if s.station.queue.length < 32 then
        { s with station := { s.station with
            queue := s.station.queue ++ [originate src 0x0B (code :: status :: content)] } }
      else { s with live := { s.live with droppedReplies := s.live.droppedReplies + 1 } }) ∧
    notice code content s =
      (if s.station.queue.length < 32 then
        { s with station := { s.station with queue := s.station.queue ++ [originate 62 0x09 (code :: content)] } }
      else { s with live := { s.live with station :=
        { s.live.station with txOverrun := s.live.station.txOverrun + 1 } } }))

/-! ### Cadences and Conditioner (02) -/

/-- A SAMPLE with one value: unmapped, late or duplicate, first, or used as the pending raw value (R29, R30); a
tick that was skipped makes it late (R26). One with up to eight: the value at each position is judged in the same way
against the entry of its own channel, in order, and nothing else changes; the unmapped count advances, by one, only
when every value is unmapped (R29). A SAMPLE of bad form is a content error (R15). -/
def Obligations.SampleJudged : Prop :=
  ∀ (f : Frame) (s : State), s.head.fifo.head? = some f → isHead f.src = true → f.dst = 0 → f.kind = 0x02 →
    (f.payload.length < 3 ∨ (f.payload.getD 2 0).toNat = 0 ∨ 8 < (f.payload.getD 2 0).toNat ∨
        f.payload.length ≠ 3 + 2 * (f.payload.getD 2 0).toNat →
      exec .sampleFrame s =
        .next ((s.dropFirst .head).countPort .head fun c => { c with content := c.content + 1 })) ∧
    (∀ tick raw : Word16, f.payload = word16 tick ++ 1 :: word16 raw →
      (keyEntry s f.src.toNat 0 = none →
        exec .sampleFrame s = .next ((s.dropFirst .head).count fun c => { c with unmapped := c.unmapped + 1 })) ∧
      (∀ m, keyEntry s f.src.toNat 0 = some m →
        let x := s.qty m.quantity
        let onTick := (∃ o, (s.cad m.cadence).openTick = some o ∧ o.skipped = false) ∧ (s.cad m.cadence).tick = tick
        (¬ onTick ∨ x.pendingRaw.isSome ∨ x.excused = true →
          exec .sampleFrame s = .next ((s.dropFirst .head).countQty m.quantity fun c => { c with late := c.late + 1 })) ∧
        (onTick → x.pendingRaw = none → x.excused = false → x.firstSample = true →
          exec .sampleFrame s =
            .next ((s.dropFirst .head).setQty m.quantity { x with firstSample := false, excused := true })) ∧
        (onTick → x.pendingRaw = none → x.excused = false → x.firstSample = false →
          exec .sampleFrame s =
            .next ((s.dropFirst .head).setQty m.quantity { x with pendingRaw := some raw.toInt })))) ∧
    (∀ (tick : Word16) (raws : List Word16), 1 ≤ raws.length → raws.length ≤ 8 →
      f.payload = word16 tick ++ BitVec.ofNat 8 raws.length :: raws.flatMap word16 →
      let judged (u : State) (v : Word16 × Nat) : State :=
        match keyEntry s f.src.toNat v.2 with
        | none => u
        | some m =>
          let x := u.qty m.quantity
          let onTick := (s.cad m.cadence).openTick.any (fun o => !o.skipped) ∧ (s.cad m.cadence).tick = tick
          if ¬ onTick ∨ x.pendingRaw.isSome ∨ x.excused = true then
            u.countQty m.quantity fun c => { c with late := c.late + 1 }
          else if x.firstSample = true then u.setQty m.quantity { x with firstSample := false, excused := true }
          else u.setQty m.quantity { x with pendingRaw := some v.1.toInt }
      let t := raws.zipIdx.foldl judged (s.dropFirst .head)
      exec .sampleFrame s = .next (if ∀ i < raws.length, keyEntry s f.src.toNat i = none then
        t.count fun c => { c with unmapped := c.unmapped + 1 } else t))

/-- A raw value is converted by its quantity's Calibration entry: clamped to the end points, exact on a
breakpoint, and interpolated with truncation toward zero between them, the product within the bound the rule
gives (R31). -/
def Obligations.ConversionRule : Prop :=
  (∀ (e : CalEntry) (x : Int), -32768 ≤ x → x ≤ 32767 → 2 ≤ e.points.length → e.points.length ≤ 8 →
    e.points.Pairwise (fun p q => p.1 < q.1) →
    (∀ p ∈ e.points, -32768 ≤ p.1 ∧ p.1 ≤ 32767 ∧ -2000000 ≤ p.2 ∧ p.2 ≤ 2000000) →
    (∀ p, e.points.head? = some p → x ≤ p.1 → convert e x = p.2) ∧
    (∀ p, e.points.getLast? = some p → p.1 ≤ x → convert e x = p.2) ∧
    (∀ p ∈ e.points, x = p.1 → convert e x = p.2) ∧
    (∀ i p q, e.points[i]? = some p → e.points[i + 1]? = some q → p.1 ≤ x → x < q.1 →
      convert e x = p.2 + ((x - p.1) * (q.2 - p.2)).tdiv (q.1 - p.1) ∧ x - p.1 ≤ 65535 ∧
      (q.2 - p.2).natAbs ≤ 4000000 ∧ ((x - p.1) * (q.2 - p.2)).natAbs < 270000000000 ∧
      ((x - p.1) * (q.2 - p.2)).natAbs < 2 ^ 47)) ∧
  (∀ (c : Cadence) (o : OpenTick) (q : Quantity) (m : MapEntry) (raw : Int) (s : State), logsFit s →
    mapped s q = some m → m.cadence = c → o.void = false → o.skipped = false →
    (s.qty q).pendingRaw = some raw →
    ((closeQuantity c o q s).1.qty q).lastConv = some (convert (calOf s m.calibration) raw))

/-- What a tick close does with a mapped quantity of its cadence, in each of the four conditions: its last
values, missing count, STALE mark, counts, and the record delivered, whose value is clamped less the tare
(R32, R34 to R36, R43). Its decimation phase then advances, and when it was 0 the value delivered joins the batch
under construction, the last raw value for a RAW quantity; a batch at the batch level, and the batch of a quantity
that delivers absent, is offered and emptied, and a refused one is counted as dropped (R40 to R42, R44). -/
def Obligations.QuantityAtClose : Prop :=
  (∀ (c : Cadence) (o : OpenTick) (q : Quantity) (m : MapEntry) (s : State), logsFit s →
    s.live.quantities.length = 16 → mapped s q = some m → m.cadence = c →
    ∃ d, (closeQuantity c o q s).2 = some d ∧
    let x := s.qty q
    let y := (closeQuantity c o q s).1.qty q
    let k := (closeQuantity c o q s).1.live.quantities[quantityCode q]?
    let e := calOf s m.calibration
    (d.cond = if o.void then .void else if o.skipped then .held else if x.pendingRaw ≠ none then .fresh
      else if x.excused then .excused else .held) ∧
    (d.cond = .fresh → y.lastRaw = x.pendingRaw ∧ y.lastConv = x.pendingRaw.map (convert e) ∧ y.missing = 0 ∧
      y.stale = false) ∧
    (d.cond ≠ .fresh → y.lastRaw = x.lastRaw ∧ y.lastConv = x.lastConv) ∧
    (d.cond = .held → x.missing < m.holdLimit →
      y.missing = x.missing + 1 ∧ (y.stale = true ↔ x.stale = true ∨ x.missing + 1 = m.holdLimit)) ∧
    (d.cond = .excused ∨ d.cond = .void ∨ d.cond = .held ∧ m.holdLimit ≤ x.missing →
      y.missing = x.missing ∧ y.stale = x.stale) ∧
    y.pendingRaw = none ∧ y.excused = false ∧ y.tare = x.tare ∧ y.phase = x.phase ∧ y.batch = x.batch ∧
    y.firstSample = x.firstSample ∧ d.stale = y.stale ∧
    (d.cond = .void → d.value = none ∧ d.clamp = false) ∧
    (d.cond ≠ .void → d.value = y.lastConv.map (fun u => clampTo e.rangeMin e.rangeMax (u - y.tare)) ∧
      d.clamp = y.lastConv.any (fun u => clampTo e.rangeMin e.rangeMax (u - y.tare) != u - y.tare)) ∧
    k = (s.live.quantities[quantityCode q]?).map fun n => { n with
      clamps := n.clamps + (if d.clamp then 1 else 0), holds := n.holds + (if d.cond = .held then 1 else 0) }) ∧
  (∀ (q : Quantity) (s : State), logsFit s → s.station.tx ≠ .idle →
    let b := (s.qty q).batch
    let emptied := s.setQty q { s.qty q with batch := Batch.empty }
    (b.values = [] → flushBatch q s = s) ∧
    (b.values ≠ [] → flushBatch q s =
      if s.station.queue.length < 32 then
        { emptied with station := { s.station with queue := s.station.queue ++ [batchFrame q b] } }
      else { emptied with live := { s.live with droppedBatches := s.live.droppedBatches + 1 } })) ∧
  (∀ (c : Cadence) (tick : Word16) (q : Quantity) (s : State), logsFit s →
    ((∀ m, mapped s q = some m → m.cadence ≠ c ∨ m.disposition = .off) → buildBatch c tick q s = s) ∧
    (∀ m, mapped s q = some m → m.cadence = c → m.disposition ≠ .off →
      let x := s.qty q
      let phase := if m.decimation ≤ x.phase then 0 else x.phase + 1
      let advanced := s.setQty q { x with phase }
      (x.phase ≠ 0 → buildBatch c tick q s = advanced) ∧
      (x.phase = 0 → value s q = none → buildBatch c tick q s = flushBatch q advanced) ∧
      (∀ w raw d, x.phase = 0 → delivered s q = some d → d.value = some w → x.lastRaw = some raw →
        let v : Int × Bool := if m.disposition = .raw then (raw, false) else (w, d.clamp)
        let b : Batch := if x.batch.values = [] then { firstTick := tick, values := [v] }
          else { x.batch with values := x.batch.values ++ [v] }
        let added := s.setQty q { x with phase, batch := b }
        buildBatch c tick q s = if batchLevel s ≤ b.values.length then flushBatch q added else added)))

/-- QUANTITY_STALE: at the tick issue whose close brings a quantity without a used value to its hold limit, the
row is that tick issue, and the quantity is STALE with its missing count at the limit (R25, R34, R35; that the
row is the whole tick issue is the model's reading, log entry 5). -/
def Obligations.QuantityGoesStale : Prop :=
  ∀ (q : Quantity) (o : CloseOrder) (m : MapEntry) (x : OpenTick) (s : State), logsFit s →
    mapped s q = some m → closesTick s m.cadence x → x.void = false →
    (x.skipped = true ∨ (s.qty q).pendingRaw = none ∧ (s.qty q).excused = false) →
    (s.qty q).stale = false → (s.qty q).missing + 1 = m.holdLimit →
    exec (.quantityStale q o) s =
      .next (issueTick m.cadence (tickClose m.cadence x o (s.atClose m.cadence)).1) ∧
    ((conditionerClose m.cadence x (s.atClose m.cadence)).qty q).stale = true ∧
    ((conditionerClose m.cadence x (s.atClose m.cadence)).qty q).missing = m.holdLimit

/-- A carry with no open tick issues the next tick and closes nothing: the TICK frame is taken at once by an idle head
transmitter for which nothing waits; it joins the queue of a busy head port, or the tick is skipped and counted (R8,
R24 to R26). -/
def Obligations.FirstTickIssued : Prop :=
  ∀ (c : Cadence) (o : CloseOrder) (s : State), (s.cad c).running = true → (s.cad c).carryDue = true →
    (s.cad c).openTick = none →
    (quiet s .head → exec (.tickIssue c o) s =
      .next (let n := (s.cad c).tick + 1
        let u := s.setCad c { s.cad c with
          tick := n, carryDue := false, openTick := some { skipped := false, void := false } }
        { u with head := { s.head with
            tx := .taken (originate 63 0x01 (BitVec.ofNat 8 (cadenceCode c) :: word16 n)) } })) ∧
    (s.head.tx ≠ .idle → exec (.tickIssue c o) s =
      .next (let n := (s.cad c).tick + 1
        let u := s.setCad c { s.cad c with
          tick := n, carryDue := false,
          openTick := some { skipped := decide (16 ≤ s.head.queue.length), void := false } }
        if s.head.queue.length < 16 then
          { u with head := { s.head with queue := s.head.queue ++
              [originate 63 0x01 (BitVec.ofNat 8 (cadenceCode c) :: word16 n)] } }
        else match c with
          | .a => { u with live := { s.live with skippedA := s.live.skippedA + 1 } }
          | .b => { u with live := { s.live with skippedB := s.live.skippedB + 1 } }))

/-- Every due tick issue, whatever its close brings, advances its cadence's tick number by one and leaves a new
open tick; phase, rate and increment stay, the other cadence is at most made void, and lane time, the receive
FIFOs, the shadow bank and the latched counts stay (R22, R25, R26, R43). -/
def Obligations.TickNumbersAdvance : Prop :=
  ∀ (c d : Cadence) (o : CloseOrder) (s : State), (s.cad c).running = true → (s.cad c).carryDue = true → c ≠ d →
    ∃ t k, exec (.tickIssue c o) s = .next t ∧
      t.cad c = { s.cad c with tick := (s.cad c).tick + 1, carryDue := false,
                               openTick := some { skipped := k, void := false } } ∧
      (t.cad d = s.cad d ∨ t.cad d = voidTick (s.cad d)) ∧ t.clock.laneTime = s.clock.laneTime ∧
      t.head.fifo = s.head.fifo ∧ t.station.fifo = s.station.fifo ∧ t.shadow = s.shadow ∧
      t.latched = s.latched ∧ t.latchTime = s.latchTime ∧ t.pending = s.pending

/-! ### Table banks and requests about them (03) -/

/-- TABLE_WRITE: PENDING while a switch is pending; BAD_ARGUMENT, with nothing written, for a bad range or for
an entry out of range, whose index alone follows the detail (the model's reading, log entry 17); otherwise the entries
stand in the shadow table, the modified mark is set, and nothing else changes but the reply (R51, R181). -/
def Obligations.TableWriteTaken : Prop :=
  ∀ (f : Frame) (tb first count : Byte) (bytes : List Byte) (t : Table) (parts : List (List Byte)) (s : State),
    s.asks f (0x01 :: tb :: first :: count :: bytes) → tableOf tb.toNat = some t →
    splitEntries t count.toNat bytes = some parts →
    let u := s.dropFirst .station
    (s.banks.switchPending = true → exec .tableWrite s = .next (reply f.src.toNat 0x01 5 [] u)) ∧
    (s.banks.switchPending = false → (count = 0 ∨ entryCount t < first.toNat + count.toNat) →
      exec .tableWrite s = .next (reply f.src.toNat 0x01 3 [2] u)) ∧
    (s.banks.switchPending = false → count ≠ 0 → first.toNat + count.toNat ≤ entryCount t →
      (∀ i, writeTable s.shadow t first.toNat parts = .inl i →
        exec .tableWrite s = .next (reply f.src.toNat 0x01 3 [2, BitVec.ofNat 8 i] u)) ∧
      (∀ b, writeTable s.shadow t first.toNat parts = .inr b →
        exec .tableWrite s =
          .next (reply f.src.toNat 0x01 0 [] { u with shadow := b, banks := { s.banks with modified := true } })))

/-- For every table, the bytes of the entries that a TABLE_WRITE accepted are the bytes read back, one for one, and
written again they give the same bank: no field of an entry is lost or changed on the way. Every entry outside those
written, in that table and in the other six, reads as before (R51 to R53, 11 section 11.5). -/
def Obligations.TableReadsBackAsWritten : Prop :=
  ∀ (b c : Bank) (t : Table) (first : Nat) (bytes : List Byte) (parts : List (List Byte)),
    b.directory.length = 16 → b.channels.length = 64 → b.calibration.length = 32 → b.classes.length = 8 →
    b.plans.length = 192 → b.startRules.length = 4 → 1 ≤ parts.length → first + parts.length ≤ entryCount t →
    splitEntries t parts.length bytes = some parts → writeTable b t first parts = .inr c →
    readTable c t first parts.length = bytes ∧ writeTable c t first parts = .inr c ∧
      ∀ (u : Table) (j : Nat), u ≠ t ∨ j < first ∨ first + parts.length ≤ j → readTable c u j 1 = readTable b u j 1

/-- TABLE_READ, BANK_STATUS and STATUS_READ in every lane state change nothing but the reply they offer: the
generation and the entries of the bank named, the registers of the Table Banks, and the section asked for
(R53, R63, R176). -/
def Obligations.ReadsAnswered : Prop :=
  ∀ (f : Frame) (s : State),
    let u := s.dropFirst .station
    (∀ (bank : Bool) (tb first count : Byte) (t : Table),
      s.asks f [0x02, if bank then 1 else 0, tb, first, count] → tableOf tb.toNat = some t →
      let entries := readTable (if bank then s.shadow else s.working) t first.toNat count.toNat
      exec .tableRead s =
        .next (if count = 0 ∨ entryCount t < first.toNat + count.toNat ∨ 113 < entries.length then
            reply f.src.toNat 0x02 3 [2] u
          else reply f.src.toNat 0x02 0 (word16 s.banks.generation ++ [tb, first, count] ++ entries) u)) ∧
    (s.asks f [0x04] →
      exec .bankStatus s =
        .next (reply f.src.toNat 0x04 0 ((if s.banks.valid then 1 else 0) :: (word16 s.banks.generation ++
          [if s.banks.switchPending then 1 else 0, if s.banks.modified then 1 else 0] ++
          lastFields s.banks.last)) u)) ∧
    (∀ sec first count : Byte, s.asks f [0x0C, sec, first, count] →
      exec .statusRead s =
        .next (match statusSection s sec.toNat first.toNat count.toNat with
          | some body => reply f.src.toNat 0x0C 0 body u
          | none => reply f.src.toNat 0x0C 3 [2] u))

/-- A switch requested with no vehicle open in OFF, IDLE or MANUAL, of a shadow bank that passes, is applied at
once: the shadow becomes the working bank, the generation advances, the batches are flushed, every quantity's
values, tares and counts are cleared, open ticks become void, and nothing else changes (R43, R56, R57). That the
last conditioned value goes and the last sets stay is the model's reading (log entry 28), and so is that the mark
of a discarded first sample goes (log entry 45) and that a held START waits for the next lane millisecond (log
entry 44). -/
def Obligations.SwitchAppliedAtOnce : Prop :=
  ∀ (f : Frame) (s : State), s.asks f [0x03, 0x01] → s.banks.switchPending = false → s.vehicle = none →
    (s.lane.state = .off ∨ s.lane.state = .idle ∨ s.lane.state = .manual) → validate s.shadow = none →
    ∃ t, exec .bankSwitchApply s = .next t ∧
      (∀ q, (t.qty q).batch.values = [] ∧ t.qty q = { QuantityState.reset with batch := (t.qty q).batch }) ∧
      t = { s with
        station := t.station, quantities := t.quantities, live := t.live, working := s.shadow,
        banks := { valid := true, generation := s.banks.generation + 1, switchPending := false,
                   modified := false, last := .passed },
        cadA := voidTick s.cadA, cadB := voidTick s.cadB,
        rollers := { s.rollers with sides :=
          { left := { s.rollers.sides.left with testDue := false },
            right := { s.rollers.sides.right with testDue := false } } } }

/-- With a vehicle open a switch that passes validation waits as PENDING; with none it is refused outside OFF, IDLE and
MANUAL; one of a bank that fails is answered BAD_TABLE with the check, table and entry, with a vehicle open or in one
of those states; and CANCEL drops a pending switch with its BANK notice, keeping the shadow bank
and its modified mark as it stands (R55, R56, R59; the mark of an unmodified shadow, and the reply before
the notice, are the model's choices, log entries 46 and 63). -/
def Obligations.SwitchWaitsFailsOrIsCancelled : Prop :=
  ∀ (f : Frame) (s : State),
    let u := s.dropFirst .station
    (s.asks f [0x03, 0x01] → s.banks.switchPending = false → s.vehicle.isSome = true → validate s.shadow = none →
      exec .bankSwitchApply s =
        .next (reply f.src.toNat 0x03 5 [1] { u with banks :=
          { s.banks with last := .passed, switchPending := true } })) ∧
    (s.asks f [0x03, 0x01] → s.banks.switchPending = false → s.vehicle = none →
      s.lane.state ≠ .off → s.lane.state ≠ .idle → s.lane.state ≠ .manual →
      exec .bankSwitchApply s = .next (reply f.src.toNat 0x03 2 [] u)) ∧
    (∀ x, s.asks f [0x03, 0x01] → s.banks.switchPending = false →
      (s.vehicle.isSome = true ∨ s.lane.state = .off ∨ s.lane.state = .idle ∨ s.lane.state = .manual) →
      validate s.shadow = some x →
      exec .bankSwitchApply s =
        .next (reply f.src.toNat 0x03 4 (BitVec.ofNat 8 (checkCode x.check) :: BitVec.ofNat 8 (tableCode x.table) ::
            (match x.entry with
              | none => [0]
              | some i => [1, BitVec.ofNat 8 i]))
          { u with banks := { s.banks with last := .failed x } })) ∧
    (s.asks f [0x03, 0x01] → s.banks.switchPending = true →
      exec .bankSwitchApply s = .next (reply f.src.toNat 0x03 5 [0] u)) ∧
    (s.asks f [0x03, 0x02] → s.banks.switchPending = true →
      exec .bankSwitchCancel s =
        .next (notice 0x0A (word32 s.clock.laneTime ++ 1 :: word16 s.banks.generation)
          (reply f.src.toNat 0x03 0 [] { u with banks := { s.banks with switchPending := false } }))) ∧
    (s.asks f [0x03, 0x02] → s.banks.switchPending = false →
      exec .bankSwitchCancel s = .next (reply f.src.toNat 0x03 2 [] u))

/-- What a bank that passes validation promises (R54): distinct nodes, one enabled drive cabinet and one display,
distinct keys, one enabled entry for each quantity, sound calibrations, eight classes whose plans end in one
FINISH with no gap, and settings that are set and in order. -/
def Obligations.ValidBankPromises : Prop :=
  ∀ b : Bank, b.channels.length = 64 → validate b = none →
    (∀ (i j : Nat) (g h : HeadEntry), i < j → b.directory[i]? = some (some g) → b.directory[j]? = some (some h) → g.node ≠ h.node) ∧
    (∀ r, r = .driveCabinet ∨ r = .display →
      ((b.directory.filterMap id).filter fun h => h.enabled && h.role == r).length = 1) ∧
    (∀ (i j : Nat) (x y : MapEntry), i < j → b.channels[i]? = some (some x) → b.channels[j]? = some (some y) →
      (x.node, x.channel) ≠ (y.node, y.channel) ∧
      (enabledIn b x = true → enabledIn b y = true → x.quantity ≠ y.quantity)) ∧
    (∀ (i : Nat) (x : MapEntry), b.channels[i]? = some (some x) → ∃ e : CalEntry, b.calibration[x.calibration]? = some (some e) ∧
      e.rangeMin ≤ e.rangeMax ∧ e.points.Pairwise (fun p q => p.1 < q.1)) ∧
    (∀ i, i < 8 → ∃ c : ClassLimits, b.classes[i]? = some (some c) ∧ c.releaseForce < c.engageForce ∧
      ∃ body last, planSteps b c.plan = body ++ [last] ∧ last.kind = .finish ∧ last.parkOnly = false ∧
        last.timeout = 0 ∧ (∀ p ∈ body, p.kind ≠ .finish) ∧
        ∀ (k : Nat) (p : PlanStep), (planEntries b c.plan)[k]? = some (some p) → k ≤ body.length) ∧
    ∃ x : LaneSettings, b.settings = some x ∧ x.followerCircumference.isSome = true ∧ x.pulsesPerRev.isSome = true ∧
      x.batchLevel.isSome = true ∧ x.standstillSpeed < x.minDriveSpeed ∧ x.speedLow < x.speedHigh

/-! ### Lane commands (04) -/

/-- GO_IDLE in OFF with a valid bank and the emergency stop released: the lane is IDLE, both cadences start at
phase 0 without an open tick, STREAM_ON is logged, offered to the heads and sets the first-sample flag of every
mapped quantity, the batches are flushed, and no more changes (R24, R40, R67; that no carry is due then is the
model's choice, log entry 2). -/
def Obligations.GoIdleStartsTheLane : Prop :=
  ∀ (f : Frame) (s : State), logsFit s → s.asks f [0x05, 0x01] → s.banks.valid = true → s.lane.state = .off →
    s.rollers.estop = false → s.lane.exitWait = false →
    ∃ t, exec .goIdle s = .next t ∧ t.lane = { s.lane with state := .idle } ∧
      (∀ c, t.cad c = { s.cad c with acc := 0, running := true, openTick := none, carryDue := false }) ∧
      (∀ q, (t.qty q).batch.values = [] ∧
        t.qty q = { s.qty q with firstSample := (mapped s q).isSome || (s.qty q).firstSample, phase := 0,
                                 batch := (t.qty q).batch }) ∧
      t.syncLog = s.logged .streamOn .sequence ∧
      (s.head.tx ≠ .idle → s.head.queue.length < 16 →
        t.head = { s.head with queue := s.head.queue ++ [originate 63 0x05 [2]] }) ∧
      t = { s with head := t.head, urgent := t.urgent, headPlace := t.headPlace, station := t.station,
                   lane := t.lane, cadA := t.cadA, cadB := t.cadB, quantities := t.quantities,
                   syncLog := t.syncLog, live := t.live }

/-- GO_OFF in IDLE or MANUAL with no vehicle open: the lane is OFF, both cadences stop with phase and tick number
kept and the open tick abandoned, pending raw values are discarded, no side is left started or held, and
STREAM_OFF is logged (R24, R45, R68). GO_MANUAL in IDLE changes the lane state and flushes the batches (R69).
That a stop forgets a carry that is due is the model's choice (log entry 2), and that the offer of a pending guidance
message to a place that a removed START frees (R103) is a row of its own its reading (log entry 6). -/
def Obligations.GoOffAndGoManual : Prop :=
  (∀ (f : Frame) (s : State), s.asks f [0x05, 0x02] → (s.lane.state = .idle ∨ s.lane.state = .manual) →
    s.vehicle = none → s.lane.exitWait = false →
    ∃ t, exec .goOff s = .next t ∧ t.lane = { s.lane with state := .off } ∧
      (∀ c, t.cad c = { s.cad c with running := false, openTick := none, carryDue := false }) ∧
      (∀ q, (t.qty q).batch.values = [] ∧
        t.qty q = { s.qty q with pendingRaw := none, excused := false, batch := (t.qty q).batch }) ∧
      (∀ sd, (t.roller sd).still = true ∧ ((s.roller sd).state = .stopped → t.roller sd = s.roller sd)) ∧
      t.rollers.estop = s.rollers.estop ∧ t.syncLog = s.logged .streamOff .sequence ∧
      t = { s with head := t.head, urgent := t.urgent, headPlace := t.headPlace, station := t.station,
                   lane := t.lane, cadA := t.cadA, cadB := t.cadB, quantities := t.quantities,
                   rollers := t.rollers, syncLog := t.syncLog, live := t.live }) ∧
  (∀ (f : Frame) (s : State), s.asks f [0x05, 0x03] → s.lane.state = .idle → s.vehicle = none →
    s.lane.exitWait = false →
    ∃ t, exec .goManual s = .next t ∧ t.lane = { s.lane with state := .manual } ∧
      (∀ q, (t.qty q).batch.values = [] ∧ t.qty q = { s.qty q with batch := (t.qty q).batch }) ∧
      t = { s with station := t.station, lane := t.lane, quantities := t.quantities, live := t.live })

/-- GO_ENTRY and GO_ENTRY_TO_TEST in IDLE with a vehicle open: the lane is in ENTRY, armed by the second only;
every mapped tareable quantity with a fresh enough value has it as its tare and the others keep theirs; TARE is
logged; plate detection is on, CLEAR when the last PLATE_OCCUPIED is 0 and WAIT_CLEAR when it is 1 or absent, and
by the model's choice at any other value (log entry 50); and the guidance 250 is queued or pending (R33, R70, R72,
R103, R148). The automatic passage is looked at within the tick issue of either cadence, after the other consumers of
its close but for a clearance taken last (the model's order, log entry 4). While the marker is armed, a crossing that
consumes an axle where there is a plate head, and where there is none a close that delivers 1 for both presence sensors
(one with neither sensor in its set makes none, and sensors of two cadences are read from the last set of each, by the
model's reading: log entry 39), makes it: from ENTRY the
test starts, with occasion AUTO_TEST (coded 8, log entry 12) and the marker clear, as GO_TEST starts it; in HALTED
remembering ENTRY the marker becomes due; with no such event, or in another state, nothing changes (R71, R72, R88). -/
def Obligations.EntryTakesTareAndPlate : Prop :=
  (∀ (toTest : Bool) (f : Frame) (s : State), logsFit s → s.asks f [0x05, if toTest then 0x06 else 0x04] →
    s.lane.state = .idle → s.vehicle.isSome = true → s.lane.exitWait = false →
    ∃ t, exec (if toTest then .goEntryToTest else .goEntry) s = .next t ∧
      t.lane = { s.lane with state := .entry, autoTest := if toTest then .armed else s.lane.autoTest } ∧
      (∀ q, (t.qty q).batch.values = [] ∧
        t.qty q = { s.qty q with tare := (t.qty q).tare, batch := (t.qty q).batch } ∧
        (∀ m u, mapped s q = some m → m.tareable = true → (s.qty q).lastConv = some u → (s.qty q).stale = false →
          (t.qty q).tare = u) ∧
        (mapped s q = none ∨ (∃ m, mapped s q = some m ∧ m.tareable = false) ∨ (s.qty q).lastConv = none ∨
          (s.qty q).stale = true → (t.qty q).tare = (s.qty q).tare)) ∧
      t.plate = { s.plate with detection := if value s .plateOccupied = some 0 then .clear else .waitClear } ∧
      t.syncLog = s.logged .tare .sequence ∧ t.engine = { s.engine with pendingGuide := t.engine.pendingGuide } ∧
      (s.head.tx ≠ .idle → s.head.queue.length < 16 → t.engine.pendingGuide = none ∧
        t.head = { s.head with queue := s.head.queue ++ [originate ((displayNode s).getD 0) 0x06 [250, 0, 0]] }) ∧
      (s.head.tx ≠ .idle → 16 ≤ s.head.queue.length → t.head = s.head ∧
        t.engine.pendingGuide = some { message := 250, axle := 0, fields := none }) ∧
      t = { s with head := t.head, urgent := t.urgent, headPlace := t.headPlace, station := t.station,
                   lane := t.lane, quantities := t.quantities, plate := t.plate, engine := t.engine,
                   syncLog := t.syncLog, live := t.live }) ∧
  (∀ (c : Cadence) (o : CloseOrder) (x : OpenTick) (s : State), closesTick s c x →
    let u := deliver c x (s.atClose c)
    u.lane.state ≠ .exit →
    let w := match c with
      | .a => autoPassage .a false (consumersA u).1
      | .b => autoPassage .b (consumersB u).2.2 (consumersB u).1
    exec (.tickIssue c o) s = .next (issueTick c (maybeReturn (if o = .clearanceLast then clearance w else w))) ∧
    (u.eval.activity ≠ .settling → (consumersB u).2.2 = (plateClose u).2)) ∧
  (∀ (c : Cadence) (crossed : Bool) (s : State),
    let met := if hasPlateHead s = true then crossed = true
      else delivers s .axlePresentL 1 = true ∧ delivers s .axlePresentR 1 = true ∧
        ∃ q m, (q = .axlePresentL ∨ q = .axlePresentR) ∧ mapped s q = some m ∧ m.cadence = c
    let entered := s.lane.state = .entry ∧ s.lane.exitWait = false
    let remembers := s.lane.state = .halted ∧ s.lane.remembered = some .entry
    (s.lane.autoTest = .armed → met → entered → autoPassage c crossed s = startTest .autoTest id s) ∧
    (s.lane.autoTest = .armed → met → remembers →
      autoPassage c crossed s = { s with lane := { s.lane with autoTest := .due } }) ∧
    (s.lane.autoTest ≠ .armed ∨ ¬ met ∨ ¬ entered ∧ ¬ remembers → autoPassage c crossed s = s)) ∧
  (∀ (p : PlanStep) (v : VehicleRecord) (s : State), s.vehicle = some v →
    (axleSection s.working (limits s).plan).head? = some p →
    (p.kind = .axleIn ∨ p.kind = .axleOut ∨ p.kind = .weigh) → runnable v.park 1 p = true →
    (∀ q ∈ neededBy p.kind, (mapped s q).isSome = true → (s.qty q).stale = false) → anyOvertemp s = false →
    let t := startTest .autoTest id s
    t.lane = { s.lane with state := .testing, autoTest := .clear } ∧
    t.engine = { plan := some (limits s).plan, step := some 0, axle := 1, phase := .running, attempt := 1,
                 elapsed := 0, presence := 0, barPhase := 0, marks := { left := .clear, right := .clear },
                 pendingGuide := t.engine.pendingGuide, waitOccasion := .advance, waitTaken := false } ∧
    t.eval = (if p.kind = .weigh then { Evaluator.reset with activity := .settling } else s.eval) ∧
    (∀ q, (t.qty q).batch.values = [] ∧ t.qty q = { s.qty q with batch := (t.qty q).batch }) ∧
    (s.station.tx ≠ .idle → s.station.queue.length + 2 ≤ 32 → (∀ q, (s.qty q).batch.values = []) →
      t.station = { s.station with queue := s.station.queue ++
        [originate 62 0x09 (0x01 :: (word32 s.clock.laneTime ++ [BitVec.ofNat 8 (laneCode .testing),
            BitVec.ofNat 8 (laneCode s.lane.state), 8, BitVec.ofNat 8 (causesByte s.lane.causes), 0, 1])),
         originate 62 0x09 (0x02 :: (word32 s.clock.laneTime ++ [BitVec.ofNat 8 (limits s).plan, 0,
            BitVec.ofNat 8 (stepKindCode p.kind), 1, 1, 0]))] }) ∧
    t = { s with head := t.head, urgent := t.urgent, headPlace := t.headPlace, station := t.station,
                 lane := t.lane, quantities := t.quantities, engine := t.engine, eval := t.eval,
                 live := t.live })

/-- GO_TEST in ENTRY, for a plan whose first step is an AXLE_IN, AXLE_OUT or WEIGH runnable for axle 1 with no
needed quantity STALE and no side overheated: the lane is TESTING and that step runs, attempt 1, its counts at 0;
a WEIGH begins to settle (R71, R86, R88, R90, R91, R126). Every begin at which no cause is recorded sets the attempt by
its occasion (a begin held back does not set it twice: the model's reading, log entry 21), sets the counts to 0, and
takes the begin actions of the step's kind after its notice and guidance (R88). SPIN marks each side by its roller
state and requests a START for each that is STOPPED: refused, which ends the step NG when both sides have been acted on
(log entry 23), held, or offered; both sides RUNNING end it at once (R92, R93, R108, R109). SERVICE, HOLD and PARK mark
the RUNNING sides MEASURING, with the watch on and in HOLD the accumulator 0 and window 1, and the others NOT_RUN; HOLD
computes K for both; with no side RUNNING the step ends at once (R94, R117, R122, R128, R137). STOP asks for the stop of
each side that is RUNNING, SPINNING_UP or HELD, and ends at once when both sides are STOPPED (R9, R95, R112);
that the offer of a pending guidance message to a place that a removed START frees (R103) is a row of its own is the
model's reading (log entry 6). FINISH has the vehicle evaluated at its begin. With a free place in the Certificate Queue
its certificate joins the tail, and it ends at once: no plan is left, the lane is in EXIT with only ESTOP left of its
causes, no side is left started or held, and the exit guidance 251 follows the step's own; with four queued the lane is
PAUSED with CERT_FULL added and FINISH is SUSPENDED_CONTINUE, the queue and the number as they were (R81, R84, R88,
R89, R96, R166). -/
def Obligations.GoTestBeginsThePlan : Prop :=
  (∀ (f : Frame) (p : PlanStep) (v : VehicleRecord) (s : State), s.asks f [0x05, 0x05] → s.lane.state = .entry →
    s.lane.exitWait = false → s.vehicle = some v → (axleSection s.working (limits s).plan).head? = some p →
    (p.kind = .axleIn ∨ p.kind = .axleOut ∨ p.kind = .weigh) → runnable v.park 1 p = true →
    (∀ q ∈ neededBy p.kind, (mapped s q).isSome = true → (s.qty q).stale = false) → anyOvertemp s = false →
    ∃ t, exec .goTest s = .next t ∧ t.lane = { s.lane with state := .testing, autoTest := .clear } ∧
      t.engine = { plan := some (limits s).plan, step := some 0, axle := 1, phase := .running, attempt := 1,
                   elapsed := 0, presence := 0, barPhase := 0, marks := { left := .clear, right := .clear },
                   pendingGuide := t.engine.pendingGuide, waitOccasion := .advance, waitTaken := false } ∧
      t.eval = (if p.kind = .weigh then { Evaluator.reset with activity := .settling } else s.eval) ∧
      (∀ q, (t.qty q).batch.values = [] ∧ t.qty q = { s.qty q with batch := (t.qty q).batch }) ∧
      t = { s with head := t.head, urgent := t.urgent, headPlace := t.headPlace, station := t.station,
                   lane := t.lane, quantities := t.quantities, engine := t.engine, eval := t.eval,
                   live := t.live }) ∧
  (∀ (o : BeginOccasion) (p : PlanStep) (s : State), currentStep s = some p →
    ((settings s).headStaleEnable = true → s.lane.causes.headStale = true ∨ neededStale s = false) →
    ((settings s).driveFaultEnable = true → s.lane.causes.driveFault = true ∨ anyOvertemp s = false) →
    let attempt := if s.engine.waitTaken then s.engine.attempt else match o with
      | .advance | .rerun => 1
      | .rep => s.engine.attempt + 1
      | .restart => s.engine.attempt
    beginStep o s = beginActions p (guideStep (stepBeginNotice p.kind o { s with engine := { s.engine with
      phase := .running, waitOccasion := o, waitTaken := false, attempt, elapsed := 0, presence := 0, barPhase := 0,
      marks := { left := .clear, right := .clear } } }))) ∧
  (∀ (p : PlanStep) (s : State),
    let r := beginActions p s
    let runs (sd : Side) := (s.roller sd).state = .running
    (p.kind = .spin →
      let mark (sd : Side) : SideMark := match (s.roller sd).state with
        | .stopped | .held | .spinningUp => .requested
        | .running => .up
        | .coasting => .waitingStandstill
      let asked (sd : Side) := (s.roller sd).state = .stopped
      let blocked (sd : Side) := s.rollers.estop || (s.roller sd).overtemp
      let offered (sd : Side) := decide (asked sd) && !blocked sd && permitted s sd
      let room := s.head.tx ≠ .idle ∧ s.head.queue.length + 2 ≤ 16
      let full := s.head.tx ≠ .idle ∧ 16 ≤ s.head.queue.length
      r.1.engine = { s.engine with marks := { left := mark .left, right := mark .right } } ∧
      (∀ sd,
        let x := s.roller sd
        let y := r.1.roller sd
        (¬ asked sd ∨ blocked sd = true → y = x) ∧
        (asked sd → blocked sd = false → permitted s sd = false →
          y = { x with state := .held, held := some { origin := .sequence, since := s.clock.laneTime },
                       testDue := false }) ∧
        (offered sd = true → room → y = { x with
          state := .spinningUp, held := none, testDue := false, outstanding := true, sendTime := none }) ∧
        (offered sd = true → full →
          y = { x with held := none, testDue := false, outstanding := false, sendTime := none })) ∧
      (room → r.1.head = { s.head with queue := s.head.queue ++
        ([.left, .right].filter offered).map (fun sd => originate ((cabinetNode s).getD 0) 0x04 [0x01, sideByte sd]) }) ∧
      (runs .left → runs .right → r.2 = some completed) ∧
      ((∃ sd, asked sd ∧ blocked sd = true ∨ offered sd = true ∧ full) → r.2 = some (byAction .ng p r.1)) ∧
      ((∃ sd, ¬ runs sd) → (∀ sd, asked sd → blocked sd = false) → room → r.2 = none) ∧
      r.1 = { s with head := r.1.head, urgent := r.1.urgent, headPlace := r.1.headPlace, station := r.1.station,
                     engine := r.1.engine, rollers := r.1.rollers, live := r.1.live }) ∧
    (p.kind = .service ∨ p.kind = .hold ∨ p.kind = .park →
      let hold := p.kind = .hold
      let side (sd : Side) : RollerSide :=
        let x := { s.roller sd with increment := if hold then incrementK s else (s.roller sd).increment }
        if runs sd then { x with
          watch := some { engaged := false, count := 0 }, acc := if hold then 0 else x.acc,
          window := if hold then 1 else x.window } else x
      let mark (sd : Side) : SideMark := if runs sd then .measuring else .notRun
      let measured (sd : Side) : EvalSide := { EvalSide.reset with
        phase := if ¬ runs sd then .idle else if hold then .engaged else .waitingEngage }
      r = ({ s with
        engine := { s.engine with marks := { left := mark .left, right := mark .right } },
        rollers := { s.rollers with sides := { left := side .left, right := side .right } },
        eval := { Evaluator.reset with
          activity := if hold then .hold else .force,
          sides := { left := measured .left, right := measured .right } } },
        if runs .left ∨ runs .right then none else some completed)) ∧
    (p.kind = .stop →
      let turns (sd : Side) := (s.roller sd).state = .running ∨ (s.roller sd).state = .spinningUp
      (∀ sd,
        let x := s.roller sd
        let y := r.1.roller sd
        let queued := s.head.queue.any (isStart sd)
        (x.state = .stopped ∨ x.state = .coasting → y = x) ∧
        (x.state = .running → y = { x with
          state := .coasting, sendTime := none, watch := none, window := 0,
          outstanding := !queued && x.outstanding }) ∧
        (x.state = .spinningUp → y = { x with
          state := if queued then .stopped else .coasting, sendTime := none, watch := none, window := 0,
          outstanding := !queued && x.outstanding }) ∧
        (x.state = .held → y = { x with state := .stopped, held := none, testDue := false }) ∧
        (turns sd → s.head.tx ≠ .idle →
          (r.1.urgent.any (·.side == sd) || r.1.headPlace.any (·.side == sd)) = true)) ∧
      (s.head.tx ≠ .idle → r.1.head = { s.head with
        queue := s.head.queue.filter fun f =>
          !(decide (turns .left) && isStart .left f || decide (turns .right) && isStart .right f) }) ∧
      ((∀ sd, ¬ turns sd) → r.1.head = s.head ∧ r.1.urgent = s.urgent ∧ r.1.headPlace = s.headPlace) ∧
      r.2 = (if (r.1.roller .left).state = .stopped ∧ (r.1.roller .right).state = .stopped then some completed
        else none) ∧
      r.1 = { s with head := r.1.head, urgent := r.1.urgent, headPlace := r.1.headPlace, station := r.1.station,
                     rollers := r.1.rollers, live := r.1.live })) ∧
  (∀ (o : BeginOccasion) (plan : Nat) (p : PlanStep) (v : VehicleRecord) (s : State), s.lane.state = .testing →
    s.vehicle = some v → s.engine.plan = some plan → currentStep s = some p → p.kind = .finish →
    ((settings s).driveFaultEnable = true → s.lane.causes.driveFault = true ∨ anyOvertemp s = false) →
    let r := evaluate (limits s) (axleSection s.working plan) (hasPlateHead s) v
    let attempt := if s.engine.waitTaken then s.engine.attempt else match o with
      | .advance | .rerun => 1
      | .rep => s.engine.attempt + 1
      | .restart => s.engine.attempt
    let t := startStep o s
    t.vehicle = some { v with results := some r } ∧
    (s.certs.queue.length < 4 →
      t.lane = { s.lane with
        state := .exit, causes := { PauseCauses.empty with estop := s.lane.causes.estop } } ∧
      t.engine = { EngineState.reset with pendingGuide := t.engine.pendingGuide } ∧ t.eval = Evaluator.reset ∧
      t.certs.number = s.certs.number + 1 ∧
      t.certs.queue = s.certs.queue ++ [assemble (s.certs.number + 1) v r s.clock.live s.clock.hold] ∧
      t.live.certificates = s.live.certificates + 1 ∧
      (∀ sd, (t.roller sd).still = true ∧ (t.roller sd).watch = none) ∧ t.rollers.estop = s.rollers.estop ∧
      (∀ q, (t.qty q).batch.values = [] ∧ t.qty q = { s.qty q with batch := (t.qty q).batch }) ∧
      ((∀ sd, (s.roller sd).state = .stopped) → s.head.tx ≠ .idle → s.head.queue.length + 2 ≤ 16 →
        t.engine.pendingGuide = none ∧ t.urgent = s.urgent ∧ t.headPlace = s.headPlace ∧
        t.head = { s.head with queue := s.head.queue ++
          [originate ((displayNode s).getD 0) 0x06 [p.message, BitVec.ofNat 8 s.engine.axle, 3,
             BitVec.ofNat 8 v.n, BitVec.ofNat 8 attempt],
           originate ((displayNode s).getD 0) 0x06 [251, 0, 0]] }) ∧
      t = { s with head := t.head, urgent := t.urgent, headPlace := t.headPlace, station := t.station,
                   lane := t.lane, quantities := t.quantities, engine := t.engine, rollers := t.rollers,
                   eval := t.eval, vehicle := t.vehicle, certs := t.certs, live := t.live }) ∧
    (4 ≤ s.certs.queue.length →
      t.lane = { s.lane with state := .paused, causes := { s.lane.causes with certFull := true } } ∧
      t.engine = { s.engine with
        phase := .suspendedContinue, waitOccasion := o, waitTaken := false, attempt, elapsed := 0, presence := 0,
        barPhase := 0, marks := { left := .clear, right := .clear }, pendingGuide := t.engine.pendingGuide } ∧
      (∀ q, (t.qty q).batch.values = [] ∧ t.qty q = { s.qty q with batch := (t.qty q).batch }) ∧
      t = { s with head := t.head, urgent := t.urgent, headPlace := t.headPlace, station := t.station,
                   lane := t.lane, quantities := t.quantities, engine := t.engine, vehicle := t.vehicle,
                   live := t.live }))

/-- GO_PAUSE in TESTING adds STATION: a running force step runs on in PAUSING; another step is suspended in
PAUSED, WEIGH for a restart and AXLE_IN, AXLE_OUT and STOP to be continued with the presence count 0 (R78, R79,
R101). -/
def Obligations.GoPauseSuspends : Prop :=
  ∀ (f : Frame) (k : StepKind) (s : State), s.asks f [0x05, 0x07] → s.lane.state = .testing →
    s.lane.exitWait = false → s.engine.phase = .running → currentKind s = some k →
    ∃ t, exec .goPause s = .next t ∧
      t.lane = { s.lane with state := if isForce k then .pausing else .paused,
                             causes := { s.lane.causes with station := true } } ∧
      t.engine = (match k with
        | .spin | .service | .hold | .park => s.engine
        | .weigh => { s.engine with phase := .suspendedRestart, marks := { left := .clear, right := .clear } }
        | .axleIn | .axleOut | .stop => { s.engine with phase := .suspendedContinue, presence := 0 }
        | .finish => { s.engine with phase := .suspendedContinue }) ∧
      t.eval = (if k = .weigh then Evaluator.reset else s.eval) ∧
      (k ≠ .weigh → t.rollers = s.rollers) ∧
      (∀ sd, (t.roller sd).state = (s.roller sd).state) ∧
      (∀ q, (t.qty q).batch.values = [] ∧ t.qty q = { s.qty q with batch := (t.qty q).batch }) ∧
      t = { s with station := t.station, lane := t.lane, quantities := t.quantities, engine := t.engine,
                   eval := t.eval, rollers := t.rollers, live := t.live }

/-- GO_RESUME: in PAUSING the step runs on in TESTING; in PAUSED with another cause left only STATION goes; in
PAUSED with none left an AXLE_IN or AXLE_OUT that was kept goes on; in HALTED with the flag released the lane is
where it was, or in PAUSED when it was testing and a cause is left (R78, R80, R83, R101); where a vehicle cancelled
in HALTED left EXIT to be entered, the exit guidance 251 is then queued or pending (R84, R105; that it is offered
at this entry is the model's reading, log entry 40); at the return to ENTRY with the marker due the test then starts, as
the automatic passage starts it (R72, R83); in an exit wait the lane is where it was, and the wait ends there if every
side is STOPPED (R75, R83). The return to TESTING with no cause left takes up the
current step: one in SUSPENDED_RESTART is begun by RESTART, one left WAITING by the occasion of the begin that was held
back (RESTART among them by the model's choice, log entry 59), and a measuring step that finds a side not RUNNING goes
back to the last runnable SPIN before it in the pass, begun by RERUN, its side marks clear while it is to be begun (the
model's choice, log entry 67); a begin that does not end at once is the whole of it (R80, R83, R88, R101). -/
def Obligations.GoResumeReturns : Prop :=
  (∀ (f : Frame) (s : State), s.asks f [0x05, 0x08] → s.lane.exitWait = false →
    let left := { s.lane.causes with station := false }
    (s.lane.state = .pausing →
      ∃ t, exec .goResume s = .next t ∧ t.lane = { s.lane with state := .testing, causes := left } ∧
        (∀ q, (t.qty q).batch.values = [] ∧ t.qty q = { s.qty q with batch := (t.qty q).batch }) ∧
        t = { s with station := t.station, lane := t.lane, quantities := t.quantities, live := t.live }) ∧
    (s.lane.state = .paused → noCause left = false →
      exec .goResume s =
        .next (reply f.src.toNat 0x05 0 [6, BitVec.ofNat 8 (causesByte left)]
          { s.dropFirst .station with lane := { s.lane with causes := left } })) ∧
    (s.lane.state = .paused → noCause left = true → s.engine.phase = .suspendedContinue →
      (currentKind s = some .axleIn ∨ currentKind s = some .axleOut) →
      ∃ t, exec .goResume s = .next t ∧ t.lane = { s.lane with state := .testing, causes := left } ∧
        t.engine = { s.engine with phase := .running, pendingGuide := t.engine.pendingGuide } ∧
        t = { s with head := t.head, urgent := t.urgent, headPlace := t.headPlace, station := t.station,
                     lane := t.lane, quantities := t.quantities, engine := t.engine, live := t.live }) ∧
    (∀ r, s.lane.state = .halted → s.lane.remembered = some r → s.rollers.estop = false →
      let rest := { s.lane.causes with estop := false }
      (r = .idle ∨ r = .manual ∨ r = .exit ∧ s.vehicle.isSome = true ∨ r = .entry ∧ s.lane.autoTest ≠ .due →
        ∃ t, exec .goResume s = .next t ∧
          t.lane = { s.lane with state := r, remembered := none, causes := rest } ∧
          t = { s with station := t.station, lane := t.lane, quantities := t.quantities, live := t.live }) ∧
      (r = .entry → s.lane.autoTest = .due →
        ∃ u, exec .goResume s = .next (startTest .autoTest id u) ∧
          u.lane = { s.lane with state := .entry, remembered := none, causes := rest } ∧
          (∀ q, (u.qty q).batch.values = [] ∧ u.qty q = { s.qty q with batch := (u.qty q).batch }) ∧
          u = { s with station := u.station, lane := u.lane, quantities := u.quantities, live := u.live }) ∧
      (r = .exit → s.vehicle = none →
        ∃ t, exec .goResume s = .next t ∧
          t.lane = { s.lane with state := .exit, remembered := none, causes := rest } ∧
          t.engine = { s.engine with pendingGuide := t.engine.pendingGuide } ∧
          (s.head.tx ≠ .idle → s.head.queue.length < 16 → t.engine.pendingGuide = none ∧
            t.head = { s.head with queue := s.head.queue ++ [originate ((displayNode s).getD 0) 0x06 [251, 0, 0]] }) ∧
          (s.head.tx ≠ .idle → 16 ≤ s.head.queue.length → t.head = s.head ∧
            t.engine.pendingGuide = some { message := 251, axle := 0, fields := none }) ∧
          t = { s with head := t.head, urgent := t.urgent, headPlace := t.headPlace, station := t.station,
                       lane := t.lane, quantities := t.quantities, engine := t.engine, live := t.live }) ∧
      ((r = .testing ∨ r = .paused) ∧ noCause rest = false ∨ r = .pausing →
        ∃ t, exec .goResume s = .next t ∧
          t.lane = { s.lane with state := .paused, remembered := none, causes := rest } ∧
          t = { s with station := t.station, lane := t.lane, quantities := t.quantities, live := t.live }) ∧
      ((r = .testing ∨ r = .paused) ∧ noCause rest = true →
        ∃ u, exec .goResume s = .next (takeUp u) ∧
          u.lane = { s.lane with state := .testing, remembered := none, causes := rest } ∧
          u = { s with station := u.station, lane := u.lane, quantities := u.quantities, live := u.live })) ∧
    (s.lane.state = .paused → noCause left = true →
      ∃ u, exec .goResume s = .next (takeUp u) ∧ u.lane = { s.lane with state := .testing, causes := left } ∧
        u = { s with station := u.station, lane := u.lane, quantities := u.quantities, live := u.live })) ∧
  (∀ (r : LaneState) (f : Frame) (s : State), s.asks f [0x05, 0x08] → s.lane.state = .halted →
    s.lane.remembered = some r → s.rollers.estop = false → s.lane.exitWait = true →
    ∃ u, exec .goResume s = .next (exitReady u) ∧
      u.lane = { s.lane with state := r, remembered := none, causes := { s.lane.causes with estop := false } } ∧
      u = { s with station := u.station, lane := u.lane, quantities := u.quantities, live := u.live }) ∧
  (∀ (plan k : Nat) (v : VehicleRecord) (p : PlanStep) (s : State), s.engine.plan = some plan →
    s.engine.step = some k → s.vehicle = some v → currentStep s = some p →
    (s.engine.phase = .suspendedRestart ∨ s.engine.phase = .waiting) →
    let spinAt (i : Nat) := ∃ q, (axleSection s.working plan)[i]? = some q ∧ q.kind = .spin ∧
      (q.parkOnly = false ∨ s.engine.axle ∈ v.park)
    let back (i : Nat) := (p.kind = .service ∨ p.kind = .hold ∨ p.kind = .park) ∧
      ((s.roller .left).state ≠ .running ∨ (s.roller .right).state ≠ .running) ∧
      i < k ∧ spinAt i ∧ ∀ j, i < j → j < k → ¬ spinAt j
    (∀ i, back i → takeUp s = startStep .rerun { s with engine := { s.engine with
      step := some i, phase := .waiting, waitOccasion := .rerun, waitTaken := false,
      marks := { left := .clear, right := .clear } } }) ∧
    ((∀ i, ¬ back i) →
      (s.engine.phase = .suspendedRestart →
        takeUp s = startStep .restart { s with engine := { s.engine with waitTaken := false } }) ∧
      (s.engine.phase = .waiting → takeUp s = startStep s.engine.waitOccasion s))) ∧
  (∀ (o : BeginOccasion) (s t : State), beginStep o s = (t, none) → startStep o s = t)

/-- A GO request in a state not listed for it, in an exit wait outside HALTED, or without its rule's condition is
answered REFUSED_STATE and changes nothing; GO_IDLE with an invalid bank is answered BAD_TABLE (R50, R66, R83). -/
def Obligations.GoRefusedChangesNothing : Prop :=
  ∀ (g : GoRequest) (f : Frame) (s : State), s.asks f [0x05, BitVec.ofNat 8 (goCode g)] →
    (s.banks.valid = false → g = .idle → exec .goIdle s = .next (reply f.src.toNat 0x05 4 [] (s.dropFirst .station))) ∧
    (s.banks.valid = true →
      (s.lane.state ∉ goStates g ∨ s.lane.exitWait = true ∧ s.lane.state ≠ .halted ∨
        (g = .off ∨ g = .manual) ∧ s.vehicle.isSome = true ∨ (g = .entry ∨ g = .entryToTest) ∧ s.vehicle = none ∨
        g = .idle ∧ s.rollers.estop = true ∨ g = .resume ∧ s.lane.state = .halted ∧ s.rollers.estop = true) →
      exec (goInstr g) s = .next (reply f.src.toNat 0x05 2 [] (s.dropFirst .station)))

/-- VEHICLE_OPEN in IDLE with no vehicle and every field in range opens the record the rule gives, starts live
and hold time at 0, counts the vehicle, and changes nothing else but the reply; in another state, or with a
vehicle open, it is refused (R73, R159, R173). That IDLE in an exit wait, where R75 has no vehicle open, takes it too is
the model's choice (log entry 52). -/
def Obligations.VehicleOpened : Prop :=
  ∀ (f : Frame) (cls n : Byte) (park ident dt : List Byte) (s : State), park.length ≤ 8 → ident.length ≤ 20 →
    dt.length ≤ 16 →
    s.asks f (0x06 :: cls :: n :: BitVec.ofNat 8 park.length :: (park ++ BitVec.ofNat 8 ident.length ::
      (ident ++ BitVec.ofNat 8 dt.length :: dt))) →
    (s.lane.state ≠ .idle ∨ s.vehicle.isSome = true →
      exec .vehicleOpen s = .next (reply f.src.toNat 0x06 2 [] (s.dropFirst .station))) ∧
    (s.lane.state = .idle → s.vehicle = none →
      let good := cls.toNat ≤ 7 ∧ 2 ≤ n.toNat ∧ n.toNat ≤ 8 ∧ (∀ a ∈ park, 1 ≤ a.toNat ∧ a.toNat ≤ n.toNat) ∧
        1 ≤ ident.length ∧ (∀ b ∈ ident ++ dt, 32 ≤ b.toNat ∧ b.toNat ≤ 126)
      (¬ good → exec .vehicleOpen s = .next (reply f.src.toNat 0x06 3 [2] (s.dropFirst .station))) ∧
      (good → exec .vehicleOpen s =
        .next (reply f.src.toNat 0x06 0 [] { s.dropFirst .station with
          live := { s.live with opened := s.live.opened + 1 },
          clock := { s.clock with live := 0, hold := 0 },
          vehicle := some
            { ident, dateTime := if dt = [] then none else some dt, cls := cls.toNat, n := n.toNat,
              park := [1, 2, 3, 4, 5, 6, 7, 8].filter fun a => (park.map (·.toNat)).contains a,
              generation := s.banks.generation, openTime := s.clock.laneTime, aborted := false, repeats := 0,
              extra := 0, axles := List.replicate n.toNat AxleEntry.empty, results := none } })))

/-- VEHICLE_CANCEL with no vehicle open is refused in every lane state (R74). With a vehicle open: the record, the plan, the measurement and the crossing are dropped, both
times are 0, the vehicle is counted, no side is left started or held, only ESTOP stays in the cause set, a
pending switch is applied, and the lane is where the rule's table puts it (R60, R74, R162), a side that the cancel
itself brings to STOPPED counting as STOPPED (the model's choice, log entry 57). The lane clearance in
EXIT, once every mapped presence quantity delivers 0: the vehicle, if still open, closes with a pending switch
applied, the re-zero count advances, or a periodic SYNC ZERO is logged and offered and it becomes 0, and the lane
is IDLE (R84; that a 0 delivered excused does not count is the model's reading, log entry 10). -/
def Obligations.VehicleCancelled : Prop :=
  (∀ (f : Frame) (s : State), s.asks f [0x07] → s.vehicle = none →
    exec .vehicleCancel s = .next (reply f.src.toNat 0x07 2 [] (s.dropFirst .station))) ∧
  (∀ (f : Frame) (s : State), s.asks f [0x07] → s.vehicle.isSome = true →
    ∃ t, exec .vehicleCancel s = .next t ∧ t.vehicle = none ∧
      t.engine = { EngineState.reset with pendingGuide := t.engine.pendingGuide } ∧ t.eval = Evaluator.reset ∧
      t.plate = PlateUnit.reset ∧ t.clock = { s.clock with live := 0, hold := 0 } ∧
      t.live.cancelled = s.live.cancelled + 1 ∧ (∀ sd, (t.roller sd).still = true ∧ (t.roller sd).watch = none) ∧
      t.rollers.estop = s.rollers.estop ∧
      t.lane.causes = { PauseCauses.empty with estop := s.lane.causes.estop } ∧ t.lane.autoTest = .clear ∧
      t.lane.rezeroCount = s.lane.rezeroCount ∧ t.certs = s.certs ∧ t.shadow = s.shadow ∧
      t.syncLog = s.syncLog ∧
      (s.banks.switchPending = false → t.working = s.working ∧ t.banks = s.banks ∧ t.cadA = s.cadA ∧ t.cadB = s.cadB) ∧
      (s.banks.switchPending = true → t.working = s.shadow ∧ t.banks = { s.banks with
        valid := true, generation := s.banks.generation + 1, switchPending := false, modified := false }) ∧
      (let stopped := (t.roller .left).state = .stopped ∧ (t.roller .right).state = .stopped
       match s.lane.state with
       | .off | .idle | .manual | .exit =>
         t.lane.state = s.lane.state ∧ t.lane.remembered = s.lane.remembered ∧ t.lane.exitWait = s.lane.exitWait
       | .halted =>
         t.lane.state = .halted ∧
           (stopped → t.lane.remembered = some .exit ∧ t.lane.exitWait = s.lane.exitWait) ∧
           (¬ stopped → t.lane.remembered = s.lane.remembered ∧ t.lane.exitWait = true)
       | .entry | .testing | .pausing | .paused =>
         (stopped → t.lane.state = .exit ∧ t.lane.exitWait = s.lane.exitWait) ∧
           (¬ stopped → t.lane.state = s.lane.state ∧ t.lane.exitWait = true))) ∧
  (∀ s : State,
    let empty := ∀ q ∈ ([.axlePresentL, .axlePresentR, .plateOccupied] : List Quantity),
      mapped s q = none ∨ delivers s q 0 = true
    (¬ (s.lane.state = .exit ∧ s.lane.exitWait = false ∧ empty) → clearance s = s) ∧
    (s.lane.state = .exit → s.lane.exitWait = false → empty →
      let t := clearance s
      let switched := s.vehicle.isSome = true ∧ s.banks.switchPending = true
      let n := min (s.lane.rezeroCount + 1) 255
      let period := (settings { s with working := if switched then s.shadow else s.working }).rezeroPeriod
      let zeroed := period ≠ 0 ∧ period ≤ n
      t.lane = { s.lane with state := .idle, rezeroCount := if zeroed then 0 else n,
                             autoTest := if s.vehicle.isSome then .clear else s.lane.autoTest } ∧
      t.vehicle = none ∧ t.syncLog = (if zeroed then s.logged .zero .periodic else s.syncLog) ∧
      (s.head.tx ≠ .idle → s.head.queue.length < 16 → t.head = { s.head with
        queue := s.head.queue ++ (if zeroed then [originate 63 0x05 [1]] else []) }) ∧
      t.working = (if switched then s.shadow else s.working) ∧
      t.banks = (if switched then { s.banks with
        valid := true, generation := s.banks.generation + 1, switchPending := false, modified := false }
        else s.banks) ∧
      t.certs = s.certs ∧ t.shadow = s.shadow ∧ t.live.cancelled = s.live.cancelled ∧
      (s.vehicle.isSome = true → t.engine = { EngineState.reset with pendingGuide := s.engine.pendingGuide } ∧
        t.eval = Evaluator.reset ∧ t.plate = PlateUnit.reset ∧ t.clock = { s.clock with live := 0, hold := 0 } ∧
        ∀ sd, (t.roller sd).state = (s.roller sd).state ∧ (t.roller sd).watch = none ∧ (t.roller sd).window = 0) ∧
      (s.vehicle = none →
        t = { s with head := t.head, urgent := t.urgent, headPlace := t.headPlace, station := t.station,
                     lane := t.lane, quantities := t.quantities, syncLog := t.syncLog, live := t.live })))

/-- LANE_RESET in every state: the lane is OFF with an empty cause set and no vehicle, no side is left started or
held, the cadences are stopped with phase, tick number, rate and increment kept (a carry that is due is forgotten,
the model's choice, log entry 2), what stood in the transmit queues and the batches is gone, so that the outcome
does not depend on it, the oldest certificate is due again and, with room, is sent after the reset's own reply and
LANE_STATE notice, a pending switch is applied, and the tables, the certificates, lane time, the tares and the
drive cabinet's flags are kept (R10, R24, R45, R61, R85, R168). That LANE_STATE codes the occasion LANE_RESET as 16 and
CERT_SENT the event SENT as 0 is the model's reading (log entries 12 and 55). -/
def Obligations.LaneResetLeaves : Prop :=
  ∀ (f : Frame) (s : State), s.asks f [0x08] →
    exec .laneReset s = exec .laneReset { s with station := { s.station with queue := [] } } ∧
    ∃ t, exec .laneReset s = .next t ∧
      t.lane = { s.lane with state := .off, remembered := none, causes := PauseCauses.empty, autoTest := .clear,
                             exitWait := false } ∧
      t.vehicle = none ∧ t.engine.pendingGuide = none ∧
      (∀ c, t.cad c = { s.cad c with running := false, openTick := none, carryDue := false }) ∧
      (∀ q, (t.qty q).batch.values = [] ∧ (t.qty q).pendingRaw = none) ∧
      (∀ sd, (t.roller sd).still = true ∧ (t.roller sd).contactor = (s.roller sd).contactor ∧
        (t.roller sd).overtemp = (s.roller sd).overtemp ∧ (t.roller sd).history = (s.roller sd).history) ∧
      t.rollers.estop = s.rollers.estop ∧
      (s.head.tx ≠ .idle → t.head =
        { s.head with queue := if s.lane.state = .off then [] else [originate 63 0x05 [3]] }) ∧
      t.syncLog = (if s.lane.state = .off then s.syncLog else s.logged .streamOff .sequence) ∧
      (s.vehicle = none → t.live.cancelled = s.live.cancelled ∧ t.plate = s.plate ∧ t.clock = s.clock) ∧
      (s.vehicle.isSome = true → t.live.cancelled = s.live.cancelled + 1 ∧ t.engine = EngineState.reset ∧
        t.eval = Evaluator.reset ∧ t.plate = PlateUnit.reset ∧ t.clock = { s.clock with live := 0, hold := 0 }) ∧
      (s.banks.switchPending = false → t.working = s.working ∧ t.banks = s.banks ∧
        ∀ q, (t.qty q).tare = (s.qty q).tare ∧ (t.qty q).lastConv = (s.qty q).lastConv ∧
          (t.qty q).stale = (s.qty q).stale ∧ (t.qty q).missing = (s.qty q).missing) ∧
      (s.banks.switchPending = true → t.working = s.shadow ∧ t.banks = { s.banks with
        valid := true, generation := s.banks.generation + 1, switchPending := false, modified := false }) ∧
      t.shadow = s.shadow ∧ t.certs.queue = s.certs.queue ∧ t.certs.number = s.certs.number ∧
      t.latched = s.latched ∧ t.latchTime = s.latchTime ∧ t.head.fifo = s.head.fifo ∧
      t.station.fifo = s.station.fifo.tail ∧
      let again := { s.certs with due := true }
      let sentAgain := { s.certs with
        due := false, sendCount := min (s.certs.sendCount + 1) 255, lastSend := some s.clock.laneTime }
      (s.certs.queue = [] → t.certs = s.certs) ∧
      (s.certs.queue ≠ [] → t.certs = again ∨ t.certs = sentAgain) ∧
      (s.station.tx ≠ .idle → (∀ sd, (s.roller sd).state ≠ .held) → s.banks.switchPending = false →
        let logged : Byte := if s.syncLog.entries.length < 32 then 1 else 0
        let sync := originate 62 0x09 (0x0B :: (word32 s.clock.laneTime ++ [3, 1, logged,
          BitVec.ofNat 8 t.syncLog.entries.length, if 16 < t.syncLog.entries.length then 1 else 0]))
        let done := originate f.src.toNat 0x0B [0x08, 0]
        let entered := originate 62 0x09 (0x01 :: (word32 s.clock.laneTime ++
          [0, BitVec.ofNat 8 (laneCode s.lane.state), 16, 0, 0, 0]))
        let own := (if s.lane.state = .off then [] else [sync]) ++ [done, entered]
        (s.certs.queue = [] → t.station.queue = own) ∧
        (∀ c rest, s.certs.queue = c :: rest → t.certs = sentAgain ∧
          t.station.queue = own ++ segments c ++ [originate 62 0x09 (0x0C :: 0 :: (word32 c.number ++
            BitVec.ofNat 8 (min (s.certs.sendCount + 1) 255) :: word32 s.clock.laneTime))]))

/-! ### Cadence, sync, counter, log and certificate requests (02, 09, 10, 11) -/

/-- CADENCE_SET: BUSY outside OFF; BAD_ARGUMENT for another cadence or a rate out of range; otherwise the rate is
replaced and the increment is the rate × 2³² / 10⁶ rounded half up, and nothing else changes but the reply; the
rate in force, with its increment, changes nothing at all (R23, R27). -/
def Obligations.CadenceSetTaken : Prop :=
  ∀ (f : Frame) (cb : Byte) (rate : Word16) (s : State), s.asks f (0x09 :: cb :: word16 rate) →
    let u := s.dropFirst .station
    (s.lane.state ≠ .off → exec .cadenceSet s = .next (reply f.src.toNat 0x09 1 [] u)) ∧
    (s.lane.state = .off → (2 ≤ cb.toNat ∨ cb = 0 ∧ (rate.toNat < 10 ∨ 1000 < rate.toNat) ∨
        cb = 1 ∧ (rate.toNat < 1 ∨ 200 < rate.toNat)) →
      exec .cadenceSet s = .next (reply f.src.toNat 0x09 3 [2] u)) ∧
    (∀ c, s.lane.state = .off → cb.toNat = cadenceCode c → (c = .a → 10 ≤ rate.toNat ∧ rate.toNat ≤ 1000) →
      (c = .b → 1 ≤ rate.toNat ∧ rate.toNat ≤ 200) →
      exec .cadenceSet s = .next (reply f.src.toNat 0x09 0 [] (u.setCad c { s.cad c with
        rate := rate.toNat, inc := (2 * (rate.toNat * 2 ^ 32) + 10 ^ 6) / (2 * 10 ^ 6) })) ∧
      ((s.cad c).rate = rate.toNat → (s.cad c).inc = (2 * (rate.toNat * 2 ^ 32) + 10 ^ 6) / (2 * 10 ^ 6) →
        exec .cadenceSet s = .next (reply f.src.toNat 0x09 0 [] u)))

/-- A sync request is logged, offered to every head and answered, with its SYNC notice after the reply;
STREAM_ON and HEAD_RESTART set the first-sample flag of every mapped quantity; ZERO and STREAM_OFF with a vehicle
open are BUSY, and STREAM_ON and HEAD_RESTART in OFF are refused (R30, R177 to R179). -/
def Obligations.SyncRequestsIssued : Prop :=
  ∀ (code : SyncCode) (i : Instr) (f : Frame) (s : State), logsFit s → syncInstr code = some i →
    s.asks f [0x0A, BitVec.ofNat 8 (syncCode code)] →
    let starts := code = .streamOn ∨ code = .headRestart
    (¬ starts → s.vehicle.isSome = true →
      exec i s = .next (reply f.src.toNat 0x0A 1 [] (s.dropFirst .station))) ∧
    (starts → s.lane.state = .off → exec i s = .next (reply f.src.toNat 0x0A 2 [] (s.dropFirst .station))) ∧
    ((¬ starts → s.vehicle = none) → (starts → s.lane.state ≠ .off) →
      ∃ t, exec i s = .next t ∧ t.syncLog = s.logged code .station ∧
        (∀ q, t.qty q = { s.qty q with
          firstSample := (decide starts && (mapped s q).isSome) || (s.qty q).firstSample }) ∧
        (s.head.tx ≠ .idle → s.head.queue.length < 16 → t.head =
          { s.head with queue := s.head.queue ++ [originate 63 0x05 [BitVec.ofNat 8 (syncCode code)]] }) ∧
        (s.station.tx ≠ .idle → s.station.queue.length + 2 ≤ 32 →
          let flag : Byte := if s.syncLog.entries.length < 32 then 1 else 0
          t.station = { s.station with
            fifo := s.station.fifo.tail,
            queue := s.station.queue ++ [originate f.src.toNat 0x0B [0x0A, 0, flag],
              originate 62 0x09 (0x0B :: (word32 s.clock.laneTime ++ [BitVec.ofNat 8 (syncCode code), 0, flag,
                BitVec.ofNat 8 t.syncLog.entries.length, if 16 < t.syncLog.entries.length then 1 else 0]))] }) ∧
        t = { s with head := t.head, urgent := t.urgent, headPlace := t.headPlace, station := t.station,
                     quantities := t.quantities, syncLog := t.syncLog, live := t.live })

/-- COUNTERS_LATCH copies every count at once with its latch time, and clears the running counts when asked to;
LOG_READ answers the oldest entries with the overflow count, and removes them and clears that count when asked
to; nothing else changes but the reply (R175, R180). -/
def Obligations.CountersLatchedAndLogRead : Prop :=
  ∀ (f : Frame) (again : Bool) (s : State),
    let u := s.dropFirst .station
    (s.asks f [0x0B, if again then 1 else 0] →
      exec .countersLatch s =
        .next (reply f.src.toNat 0x0B 0 (word32 s.clock.laneTime) { u with
          latched := s.live, latchTime := some s.clock.laneTime,
          live := if again then Counters.zero else s.live })) ∧
    (∀ count : Byte, s.asks f [0x0D, count, if again then 1 else 0] → 1 ≤ count.toNat → count.toNat ≤ 16 →
      exec .logRead s =
        .next (reply f.src.toNat 0x0D 0
          ((s.syncLog.entries.take count.toNat).flatMap (fun e => word32 e.time ++
              [BitVec.ofNat 8 (syncCode e.code), BitVec.ofNat 8 (sourceCode e.source)]) ++
            be16 s.syncLog.overflow ++ [BitVec.ofNat 8 s.syncLog.entries.length])
          (if again then
            { u with syncLog := { entries := s.syncLog.entries.drop count.toNat, overflow := 0 } } else u)))

/-- CERT_ACK of the oldest certificate removes it and no other, with its DONE reply, its notice and CERT_FULL out
of the cause set; the next becomes due, starts at no send, and is sent where there is room; in PAUSED with no
cause but CERT_FULL the lane returns to TESTING and the waiting FINISH queues its certificate under the next number
and enters EXIT; another number is NOT_OLDEST and an empty queue BAD_ARGUMENT, with nothing changed. CERT_NUMBER_SET
sets the number only with no vehicle open and an empty queue (R81, R163, R166, R167, R169, R170; the detail byte
for an empty queue and the event byte 1 of CERT_SENT are the model's, log entries 34 and 55, and so is the axle entry whose stale marks the
assembled certificate shows, log entry 61). -/
def Obligations.CertificatesAcknowledged : Prop :=
  ∀ (f : Frame) (n : Word32) (s : State),
    let u := s.dropFirst .station
    (s.asks f (0x0E :: word32 n) →
      (s.certs.queue = [] → exec .certAck s = .next (reply f.src.toNat 0x0E 3 [2] u)) ∧
      (∀ c rest, s.certs.queue = c :: rest → c.number ≠ n →
        exec .certAck s = .next (reply f.src.toNat 0x0E 6 (word32 c.number) u)) ∧
      (∀ c rest, s.certs.queue = c :: rest → c.number = n →
        let causes := { s.lane.causes with certFull := false }
        let removed := { s.certs with queue := rest, due := decide (rest ≠ []), sendCount := 0, lastSend := none }
        (s.lane.state ≠ .paused ∨ noCause causes = false ∨ s.vehicle = none ∨ s.lane.exitWait = true →
          ∃ t, exec .certAck s = .next t ∧
            exec .certSend (notice 0x0C (1 :: word32 n) (reply f.src.toNat 0x0E 0 []
              { u with lane := { s.lane with causes }, certs := removed })) = .next t ∧
            t.lane = { s.lane with causes } ∧
            (rest = [] → t.certs = removed) ∧
            (rest ≠ [] → t.certs = removed ∨
              t.certs = { removed with due := false, sendCount := 1, lastSend := some s.clock.laneTime }) ∧
            (s.station.tx ≠ .idle → s.station.queue.length + 2 ≤ 32 → ∃ more, t.station.queue = s.station.queue ++
              [originate f.src.toNat 0x0B [0x0E, 0], originate 62 0x09 (0x0C :: 1 :: word32 n)] ++ more) ∧
            t = { s with station := t.station, certs := t.certs, lane := t.lane, live := t.live }) ∧
        (∀ v r, s.lane.state = .paused → noCause causes = true → s.lane.exitWait = false → s.vehicle = some v →
          v.results = some r → s.engine.phase = .suspendedContinue → currentKind s = some .finish →
          rest.length < 4 →
          ∃ t, exec .certAck s = .next t ∧
            t.lane = { s.lane with state := .exit, causes := PauseCauses.empty } ∧
            t.certs.number = s.certs.number + 1 ∧
            t.certs.queue = rest ++ [assemble (s.certs.number + 1) v r s.clock.live s.clock.hold] ∧
            t.vehicle = s.vehicle ∧ t.clock = s.clock ∧
            t.engine = { EngineState.reset with pendingGuide := t.engine.pendingGuide } ∧
            (∀ sd, (t.roller sd).still = true) ∧
            t.live.certificates = s.live.certificates + 1))) ∧
    (s.asks f (0x0F :: word32 n) →
      (s.vehicle.isSome = true ∨ s.certs.queue ≠ [] →
        exec .certNumberSet s = .next (reply f.src.toNat 0x0F 1 [] u)) ∧
      (s.vehicle = none → s.certs.queue = [] →
        exec .certNumberSet s = .next (reply f.src.toNat 0x0F 0 [] { u with certs := { s.certs with number := n } })))

/-- A request with an empty payload or a code that names none is answered UNKNOWN_REQUEST; a request of the wrong
length is answered BAD_ARGUMENT with the detail MALFORMED; nothing else changes but the reply (R181). Any row of
a code that has several takes its malformed requests (the model's choice, log entry 7). -/
def Obligations.UnknownAndMalformedAnswered : Prop :=
  ∀ (f : Frame) (s : State),
    (s.asks f [] → exec .unknownRequest s = .next (reply f.src.toNat 0 7 [] (s.dropFirst .station))) ∧
    (∀ b rest, s.asks f (b :: rest) → (b = 0 ∨ 15 < b.toNat) →
      exec .unknownRequest s = .next (reply f.src.toNat b 7 [] (s.dropFirst .station))) ∧
    (∀ (code : Byte) (len : Nat) (i : Instr) (content : List Byte),
      (code, len, i) ∈ ([(0x02, 4, .tableRead), (0x03, 1, .bankSwitchApply), (0x03, 1, .bankSwitchCancel),
        (0x04, 0, .bankStatus), (0x05, 1, .goIdle), (0x05, 1, .goOff), (0x05, 1, .goManual), (0x05, 1, .goEntry),
        (0x05, 1, .goTest), (0x05, 1, .goEntryToTest), (0x05, 1, .goPause), (0x05, 1, .goResume),
        (0x07, 0, .vehicleCancel), (0x08, 0, .laneReset), (0x09, 3, .cadenceSet), (0x0A, 1, .syncRequestZero),
        (0x0A, 1, .syncRequestStreamOn), (0x0A, 1, .syncRequestStreamOff), (0x0A, 1, .syncRequestHeadRestart),
        (0x0B, 1, .countersLatch), (0x0C, 3, .statusRead), (0x0D, 2, .logRead), (0x0E, 4, .certAck),
        (0x0F, 4, .certNumberSet)] : List (Byte × Nat × Instr)) →
      s.asks f (code :: content) → content.length ≠ len →
      exec i s = .next (reply f.src.toNat code 3 [1] (s.dropFirst .station)))

/-! ### Roller supervision (06) -/

/-- The start rules: a START is permitted exactly when, for every rule whose window is not 0, fewer sends of the
side than its number lie within that window, aged entries not counted (R107). -/
def Obligations.StartPermittedByTheRules : Prop :=
  ∀ (s : State) (sd : Side), permitted s sd = true ↔
    ∀ k, 1 ≤ k → k ≤ 4 → ruleWindow s k ≠ 0 →
      ((s.roller sd).history.filter fun e =>
        e.aged = false ∧ (s.clock.laneTime - e.time).toNat < ruleWindow s k).length < k

/-- A station START for the drive cabinet: refused for the first check of R108 it fails, held when the start rules
do not permit it, and otherwise sent to the drive cabinet with the side SPINNING_UP: taken at once by an idle head
transmitter for which nothing waits, at the tail of a busy port's queue, or refused by a full one (R8, R19, R108, R109,
R111). One with a bad length or a bad side is a content error of the station port that changes nothing else (R19). -/
def Obligations.StationStartJudged : Prop :=
  (∀ (f : Frame) (s : State), s.station.fifo.head? = some f → isStation f.src = true → f.kind = 0x04 →
    isHead f.dst = true → cabinetNode s = some f.dst.toNat → f.payload.head? = some 0x01 →
    (∀ sd, f.payload ≠ [0x01, sideByte sd]) →
    exec .stationStart s =
      .next ((s.dropFirst .station).countPort .station fun c => { c with content := c.content + 1 })) ∧
  (∀ (sd : Side) (f : Frame) (s : State), s.station.fifo.head? = some f →
    isCabinetCommand s f [0x01, sideByte sd] = true → s.lane.exitWait = false →
    let u := s.dropFirst .station
    let r := s.roller sd
    let open_ := s.lane.state = .manual ∨ s.lane.state = .testing ∧ runningKind s .spin = true
    let refused (why : PolicyReason) := exec .stationStart s = .next (policyNotice sd .station .refused (some why) u)
    (s.rollers.estop = true → refused .estop) ∧
    (s.rollers.estop = false → ¬ open_ → refused .interlock) ∧
    (s.rollers.estop = false → open_ → r.overtemp = true → refused .overtemperature) ∧
    (s.rollers.estop = false → open_ → r.overtemp = false → r.state = .held → refused .alreadyHeld) ∧
    (s.rollers.estop = false → open_ → r.overtemp = false →
      (r.state = .spinningUp ∨ r.state = .running ∨ r.state = .coasting) → refused .notStopped) ∧
    (s.rollers.estop = false → open_ → r.overtemp = false → r.state = .stopped → permitted s sd = false →
      exec .stationStart s = .next (policyNotice sd .station .held (some .startRules)
        (u.setRoller sd { r with state := .held, held := some { origin := .station, since := s.clock.laneTime },
                                 testDue := false }))) ∧
    (s.rollers.estop = false → open_ → r.overtemp = false → r.state = .stopped → permitted s sd = true →
      let started := u.setRoller sd { r with
        state := .spinningUp, held := none, testDue := false, outstanding := true, sendTime := none }
      let start := originate ((cabinetNode s).getD 0) 0x04 [0x01, sideByte sd]
      (quiet s .head → exec .stationStart s = .next { started with head := { s.head with tx := .taken start } }) ∧
      (s.head.tx ≠ .idle → s.head.queue.length < 16 →
        exec .stationStart s = .next { started with head := { s.head with queue := s.head.queue ++ [start] } }) ∧
      (s.head.tx ≠ .idle → 16 ≤ s.head.queue.length →
        exec .stationStart s = .next (takeReports [.refused sd] (policyNotice sd .station .refused (some .queueFull)
          (u.setRoller sd { r with held := none, testDue := false, outstanding := false, sendTime := none }))))))

/-- A station STOP for the drive cabinet, with no step running: it is offered in every state of the side; a
RUNNING side is COASTING, a SPINNING_UP side STOPPED when its START was removed and otherwise COASTING, and a
held START is cancelled with its POLICY notice (R9, R19, R112). That the offer of a pending guidance message to a place
that a removed START frees (R103) is a row of its own is the model's reading (log entry 6). One with a bad length or a
bad side is a content error of the station port that changes nothing else (R19). -/
def Obligations.StationStopTaken : Prop :=
  (∀ (f : Frame) (s : State), s.station.fifo.head? = some f → isStation f.src = true → f.kind = 0x04 →
    isHead f.dst = true → cabinetNode s = some f.dst.toNat → f.payload.head? = some 0x02 →
    (∀ sd, f.payload ≠ [0x02, sideByte sd]) →
    exec .stationStop s =
      .next ((s.dropFirst .station).countPort .station fun c => { c with content := c.content + 1 })) ∧
  (∀ (sd : Side) (f : Frame) (s : State), s.station.fifo.head? = some f →
    isCabinetCommand s f [0x02, sideByte sd] = true → s.lane.exitWait = false → s.engine.phase ≠ .running →
    let o := offerStop sd (s.dropFirst .station)
    let r := o.1.roller sd
    ((s.roller sd).state = .stopped ∨ (s.roller sd).state = .coasting → exec .stationStop s = .next o.1) ∧
    ((s.roller sd).state = .running →
      exec .stationStop s = .next (o.1.setRoller sd { r with
        state := .coasting, sendTime := none, watch := none, window := 0 })) ∧
    ((s.roller sd).state = .spinningUp →
      exec .stationStop s = .next (o.1.setRoller sd { r with
        state := if s.head.queue.any (isStart sd) then .stopped else .coasting,
        sendTime := none, watch := none, window := 0 })) ∧
    (∀ h, (s.roller sd).state = .held → (s.roller sd).held = some h →
      exec .stationStop s = .next (policyNotice sd h.origin .cancelled (some .stop)
        (o.1.setRoller sd { r with state := .stopped, held := none, testDue := false }))))

/-- Every STATUS of the drive cabinet with five bytes leaves its five flags as it reports them, and one of another
length is a content error that changes nothing else (R16, R119). One that sets the emergency-stop flag leaves no
side started or held, and a lane in any state but OFF and HALTED is in HALTED, remembering that state, with ESTOP
in the cause set and no step running (R82, R120). One that sets an overtemperature flag while a test is under way
records DRIVE_FAULT where its enable is on: the lane is PAUSED, no side is left started or held, and the step is
interrupted (R76, R79). HEAD_STALE is tested at each report of a quantity that a tick close made STALE or fresh:
recorded under the same conditions with the same effects, but in PAUSED and HALTED only added to the set, and
removed when no needed quantity is STALE (R76, R77, R79; the moment of the report within the close: log entry 22). Every STATUS with five bytes is copied to node 62
first (the model's choice, log entry 27), with its check value anew, taken at once by an idle transmitter for which nothing
waits, a refused copy counted as a transmit overrun, and the supervisor takes the status in any case (R5, R6, R16); one that changes no flag takes the contactors, L and its report
before R (the model's choice, log entry 48), and a STOP that a contactor asks for before those of the step's end it
leads to (the model's choice, log entry 58). A contactor on for a STOPPED or HELD side without an outstanding START is
an uncommanded run: its STOP is offered, a held START is cancelled with CONTACTOR and reported as refused, the side is
COASTING, and UNCOMMANDED is noticed; any other contactor state is only held (R119; freed places: log entry 6). -/
def Obligations.StatusOfTheDriveCabinet : Prop :=
  (∀ (f : Frame) (cl ol cr or_ e : Byte) (s : State), s.head.fifo.head? = some f →
    isCabinetStatus s f [cl, ol, cr, or_, e] = true → e ≠ 0 → s.rollers.estop = false →
    s.lane.state ≠ .off → s.lane.state ≠ .halted →
    ∃ t, exec .statusFrame s = .next t ∧ t.rollers.estop = true ∧
      (∀ sd, (t.roller sd).still = true ∧ (t.roller sd).watch = none) ∧
      (t.roller .left).contactor = decide (cl ≠ 0) ∧ (t.roller .right).contactor = decide (cr ≠ 0) ∧
      (t.roller .left).overtemp = decide (ol ≠ 0) ∧ (t.roller .right).overtemp = decide (or_ ≠ 0) ∧
      t.lane.state = .halted ∧ t.lane.remembered = some s.lane.state ∧ t.lane.causes.estop = true ∧
      t.lane.autoTest = s.lane.autoTest ∧ t.lane.exitWait = s.lane.exitWait ∧
      (t.engine.phase ≠ .running ∨ currentKind s = none)) ∧
  (∀ (f : Frame) (s : State), s.head.fifo.head? = some f →
    (∀ cl ol cr or_ e : Byte, isCabinetStatus s f [cl, ol, cr, or_, e] = true →
      ∃ t, exec .statusFrame s = .next t ∧ t.rollers.estop = decide (e ≠ 0) ∧
        (t.roller .left).contactor = decide (cl ≠ 0) ∧ (t.roller .right).contactor = decide (cr ≠ 0) ∧
        (t.roller .left).overtemp = decide (ol ≠ 0) ∧ (t.roller .right).overtemp = decide (or_ ≠ 0) ∧
        t.head.fifo = s.head.fifo.tail ∧ t.clock.laneTime = s.clock.laneTime) ∧
    (isHead f.src = true → f.dst = 0 → f.kind = 0x03 → cabinetNode s = some f.src.toNat → f.payload.length ≠ 5 →
      exec .statusFrame s =
        .next ((s.dropFirst .head).countPort .head fun c => { c with content := c.content + 1 }))) ∧
  (∀ (f : Frame) (cl ol cr or_ : Byte) (s : State), s.head.fifo.head? = some f →
    isCabinetStatus s f [cl, ol, cr, or_, 0] = true → s.rollers.estop = false → s.lane.exitWait = false →
    s.vehicle.isSome = true → s.lane.causes.driveFault = false → (settings s).driveFaultEnable = true →
    (ol ≠ 0 ∧ (s.roller .left).overtemp = false ∨ or_ ≠ 0 ∧ (s.roller .right).overtemp = false) →
    (s.lane.state = .testing ∨ s.lane.state = .pausing ∨ s.lane.state = .paused ∧ s.engine.phase ≠ .running) →
    ∃ t, exec .statusFrame s = .next t ∧
      t.lane = { s.lane with state := .paused, causes := { s.lane.causes with driveFault := true } } ∧
      (∀ sd, (t.roller sd).still = true) ∧ (t.engine.phase ≠ .running ∨ currentKind s = none) ∧
      t.vehicle = s.vehicle ∧ t.certs = s.certs ∧ t.plate = s.plate ∧ t.clock = s.clock) ∧
  (∀ (c : Cadence) (o : OpenTick) (q : Quantity) (s : State), (closeAndReport c o q s).1 =
    if ((closeQuantity c o q s).1.qty q).stale = (s.qty q).stale then (closeQuantity c o q s).1
    else testHeadStale (closeQuantity c o q s).1) ∧
  (∀ s : State,
    let needed := ∃ k, currentKind s = some k ∧
      ∃ q ∈ neededBy k, (mapped s q).isSome = true ∧ (s.qty q).stale = true
    let added := { s.lane.causes with headStale := true }
    (s.lane.causes.headStale = true → needed → testHeadStale s = s) ∧
    (s.lane.causes.headStale = true → ¬ needed →
      testHeadStale s = { s with lane := { s.lane with causes := { s.lane.causes with headStale := false } } }) ∧
    (s.lane.causes.headStale = false →
      ¬ (testUnderWay s = true ∧ (settings s).headStaleEnable = true ∧ needed) → testHeadStale s = s) ∧
    (s.lane.causes.headStale = false → testUnderWay s = true → (settings s).headStaleEnable = true → needed →
      (s.lane.state = .paused ∨ s.lane.state = .halted →
        testHeadStale s = { s with lane := { s.lane with causes := added } }) ∧
      (s.lane.state = .testing ∨ s.lane.state = .pausing →
        let t := testHeadStale s
        t.lane = { s.lane with state := .paused, causes := added } ∧ (∀ sd, (t.roller sd).still = true) ∧
        t.engine.phase ≠ .running ∧
        t = { s with head := t.head, urgent := t.urgent, headPlace := t.headPlace, station := t.station,
                     lane := t.lane, quantities := t.quantities, engine := t.engine, eval := t.eval,
                     rollers := t.rollers, live := t.live }))) ∧
  (∀ (f : Frame) (cl ol cr or_ e : Byte) (s : State), s.head.fifo.head? = some f →
    isCabinetStatus s f [cl, ol, cr, or_, e] = true → (s.station.tx = .idle → s.station.queue = []) →
    let u := s.dropFirst .head
    let copy : Frame := { f with dst := 62, check := crc16 (checkedBytes 62 f.src 0x03 [cl, ol, cr, or_, e]) }
    let copied := if s.station.tx = .idle then { u with station := { s.station with tx := .taken copy } }
      else if s.station.queue.length < 32 then
        { u with station := { s.station with queue := s.station.queue ++ [copy] } }
      else u.countPort .station fun c => { c with txOverrun := c.txOverrun + 1 }
    exec .statusFrame s = .next (takeStatus [cl, ol, cr, or_, e] copied) ∧
    (s.rollers.estop = decide (e ≠ 0) → (s.roller .left).overtemp = decide (ol ≠ 0) →
      (s.roller .right).overtemp = decide (or_ ≠ 0) →
      let l := contactor .left (decide (cl ≠ 0)) copied
      let r := contactor .right (decide (cr ≠ 0)) (takeReports l.2 l.1)
      exec .statusFrame s = .next (maybeReturn (takeReports r.2 r.1)))) ∧
  (∀ (sd : Side) (on : Bool) (s : State),
    let held := s.setRoller sd { s.roller sd with contactor := on }
    let o := (offerStop sd held).1
    let uncommanded (u : State) := policyNotice sd .supervisor .uncommanded (some .contactor) u
    (on = false ∨ ((s.roller sd).state ≠ .stopped ∧ (s.roller sd).state ≠ .held) ∨ (s.roller sd).outstanding = true →
      contactor sd on s = (held, [])) ∧
    (on = true → (s.roller sd).outstanding = false →
      ((s.roller sd).state = .stopped →
        contactor sd on s = (uncommanded (o.setRoller sd { o.roller sd with state := .coasting }), [])) ∧
      (∀ h, (s.roller sd).state = .held → (s.roller sd).held = some h →
        contactor sd on s = (uncommanded (policyNotice sd h.origin .cancelled (some .contactor)
          (o.setRoller sd { o.roller sd with state := .coasting, held := none, testDue := false })), [.refused sd]))))


/-- A held START tested at a lane millisecond: still not permitted, it waits on; permitted with its origin's
condition met, it is sent, RELEASED, and taken at once by an idle head transmitter for which nothing waits; permitted
otherwise, it is cancelled with INTERLOCK and the side STOPPED (R8, R108, R110). -/
def Obligations.HeldStartTested : Prop :=
  ∀ (sd : Side) (h : HeldStart) (s : State), (s.roller sd).state = .held → (s.roller sd).held = some h →
    (s.roller sd).testDue = true →
    let r := s.roller sd
    (permitted s sd = false →
      exec (.heldStartPermitted sd) s = .next (s.setRoller sd { r with testDue := false })) ∧
    (permitted s sd = true → originHolds s h.origin = true → s.lane.exitWait = false →
      let released := policyNotice sd h.origin .released none
        (s.setRoller sd { r with state := .spinningUp, held := none, testDue := false, outstanding := true,
                                 sendTime := none })
      let start := originate ((cabinetNode s).getD 0) 0x04 [0x01, sideByte sd]
      (quiet s .head →
        exec (.heldStartPermitted sd) s = .next { released with head := { s.head with tx := .taken start } }) ∧
      (s.head.tx ≠ .idle → s.head.queue.length < 16 →
        exec (.heldStartPermitted sd) s =
          .next { released with head := { s.head with queue := s.head.queue ++ [start] } })) ∧
    (permitted s sd = true → originHolds s h.origin = false → s.engine.phase ≠ .running → s.lane.exitWait = false →
      exec (.heldStartPermitted sd) s = .next (policyNotice sd h.origin .cancelled (some .interlock)
        (s.setRoller sd { r with state := .stopped, held := none, testDue := false })))

/-- The spin-up window of a side runs out once that many milliseconds have passed since its START was sent: its
STOP is offered, the side is COASTING and NG is reported; with no step running that is all (R114). That this STOP is
offered before those that the end of the running step asks for, so STOP R before STOP L where the window of R runs out
and the step ends by ABORT, is the model's choice (log entry 58). Before the window has run out nothing changes (the model's choice for a row whose event has not come, log entry 1). That the offer of a pending guidance message to a place
that a removed START frees (R103) is a row of its own is the model's reading (log entry 6). What a running step does with
a report: OK marks a REQUESTED side UP and ends SPIN once both are UP; NG and a refusal end the SPIN of a REQUESTED side
NG, by its action; the standstill of a WAITING_STANDSTILL side requests its START, and the last standstill ends STOP; a
side that has left RUNNING is WAITING_STANDSTILL where it was UP, and ended STOPPED where it was measured, which ends
the step once no side is measured; another report changes nothing. The exit wait then ends once every side is STOPPED
(R75, R92 to R95, R98, R108, R109, R133). -/
def Obligations.SpinUpWindowEnds : Prop :=
  (∀ (sd : Side) (sent : Word32) (s : State), (s.roller sd).state = .spinningUp →
    (s.roller sd).sendTime = some sent →
    ((s.clock.laneTime - sent).toNat < (settings s).spinUpWindow →
      exec (.spinUpWindowExpiry sd) s = .next s) ∧
    ((settings s).spinUpWindow ≤ (s.clock.laneTime - sent).toNat →
      exec (.spinUpWindowExpiry sd) s = .next (takeReports [.spinUpNg sd] ((offerStop sd s).1.setRoller sd
        { (offerStop sd s).1.roller sd with
          state := .coasting, sendTime := none, watch := none, window := 0 }))) ∧
    ((settings s).spinUpWindow ≤ (s.clock.laneTime - sent).toNat → s.engine.phase ≠ .running →
      s.lane.exitWait = false →
      exec (.spinUpWindowExpiry sd) s = .next ((offerStop sd s).1.setRoller sd
        { (offerStop sd s).1.roller sd with
          state := .coasting, sendTime := none, watch := none, window := 0 }))) ∧
  (∀ (sd : Side) (p : PlanStep) (s : State), currentStep s = some p → s.engine.phase = .running →
    let mark := s.engine.marks.get sd
    let marked (m : SideMark) : State := { s with engine := { s.engine with marks := s.engine.marks.set sd m } }
    let finished (u : State) := finishStep { ending := .completed, outcome := .ok } u
    let ng (u : State) := finishStep { ending := .ng, outcome := match p.action with
      | .rep => if s.engine.attempt - 1 < p.repeatLimit then .rep else .aborted
      | .skip => .skipped
      | .abort => .aborted } u
    let x := s.roller sd
    let asked := marked .requested
    (p.kind = .spin → mark = .requested →
      (s.engine.marks.get (otherSide sd) = .up → takeReport (.spinUpOk sd) s = finished (marked .up)) ∧
      (s.engine.marks.get (otherSide sd) ≠ .up → takeReport (.spinUpOk sd) s = marked .up) ∧
      takeReport (.spinUpNg sd) s = ng s ∧ takeReport (.refused sd) s = ng s) ∧
    (p.kind = .spin → mark = .waitingStandstill → x.state = .stopped →
      (s.rollers.estop = true ∨ x.overtemp = true → takeReport (.standstill sd) s = ng asked) ∧
      (s.rollers.estop = false → x.overtemp = false → permitted s sd = false →
        takeReport (.standstill sd) s = policyNotice sd .sequence .held (some .startRules) (asked.setRoller sd
          { x with state := .held, held := some { origin := .sequence, since := s.clock.laneTime },
                   testDue := false })) ∧
      (s.rollers.estop = false → x.overtemp = false → permitted s sd = true → s.head.tx ≠ .idle →
        s.head.queue.length < 16 →
        takeReport (.standstill sd) s = { asked.setRoller sd { x with
            state := .spinningUp, held := none, testDue := false, outstanding := true, sendTime := none } with
          head := { s.head with queue := s.head.queue ++
            [originate ((cabinetNode s).getD 0) 0x04 [0x01, sideByte sd]] } })) ∧
    (p.kind = .stop → takeReport (.standstill sd) s =
      if (s.roller .left).state = .stopped ∧ (s.roller .right).state = .stopped then finished s else s) ∧
    (p.kind = .spin → mark = .up → takeReport (.leftRunning sd) s = marked .waitingStandstill) ∧
    (p.kind = .service ∨ p.kind = .hold ∨ p.kind = .park →
      let runs (y : EvalSide) := y.phase = .waitingEngage ∨ y.phase = .engaged
      let y := s.eval.sides.get sd
      let ended : State := if runs y then
        { s with eval := { s.eval with sides := s.eval.sides.set sd { y with phase := .ended, ending := .stopped } } }
        else s
      takeReport (.leftRunning sd) s = if runs (s.eval.sides.get (otherSide sd)) then ended else finished ended)) ∧
  (∀ (sd : Side) (s : State),
    let runs (k : StepKind) := s.engine.phase = .running ∧ currentKind s = some k
    let mark := s.engine.marks.get sd
    (¬ (runs .spin ∧ mark = .requested) → takeReport (.spinUpOk sd) s = s ∧ takeReport (.spinUpNg sd) s = s ∧
      takeReport (.refused sd) s = s) ∧
    (¬ (runs .spin ∧ mark = .waitingStandstill) → ¬ runs .stop → takeReport (.standstill sd) s = s) ∧
    (¬ (runs .spin ∧ mark = .up) → ¬ runs .service → ¬ runs .hold → ¬ runs .park →
      takeReport (.leftRunning sd) s = s)) ∧
  (∀ (r : Report) (s : State),
    let stopped := (s.roller .left).state = .stopped ∧ (s.roller .right).state = .stopped
    takeReports [r] s = exitReady (takeReport r s) ∧
    (s.lane.exitWait = false ∨ s.lane.state = .halted ∨ ¬ stopped → exitReady s = s) ∧
    (s.lane.exitWait = true → s.lane.state ≠ .halted → stopped →
      (exitReady s).lane = { s.lane with state := .exit, exitWait := false,
                                         causes := { PauseCauses.empty with estop := s.lane.causes.estop } } ∧
      (exitReady s).rollers = s.rollers ∧ (exitReady s).vehicle = s.vehicle))

/-- A side at a tick close of A. SPINNING_UP, it is RUNNING with slip 0 and no send time, and OK is reported, when the
close falls within the spin-up window and both speed conditions hold, and is otherwise unchanged (R114); COASTING, it
is STOPPED, and its standstill reported, when its drive speed is below standstill or not mapped, its contactor is off
and no START is outstanding, and is otherwise unchanged (R115); STOPPED or HELD, it is unchanged. RUNNING: its slip is (d − f) × 1000 / d clamped to 0 to 1,000 when the drive speed
is at least the minimum, and kept otherwise; an engaged watch counts closes with the slip at the lock slip, starts
again at 0 below it, and at the lock confirm the side's STOP is offered and it is COASTING (R116 to R118). The
wheel revolution accumulator adds the delivered pulses times K modulo 2³², K being 2³² × Cf / (Cw × Nf) rounded
half up; a sum of 2³² or more is one carry, however large, and ends the window, whose number advances to at most
255 (R122 to R124). That the close which confirms a lock adds no pulses is the model's choice (log entry 54), and that a
side is judged by its state at the close's start, and the offer of a pending guidance message to a place that a removed
START frees (R103) is a row of its own, its readings (log entries 29 and 6). -/
def Obligations.RunningSideAtClose : Prop :=
  (∀ (sd : Side) (s : State),
    let x := s.roller sd
    let drive := value s (driveSpeed sd)
    let follow := value s (followSpeed sd)
    let spunUp := ∃ sent d f, x.sendTime = some sent ∧ (s.clock.laneTime - sent).toNat < (settings s).spinUpWindow ∧
      drive = some d ∧ follow = some f ∧ (settings s).minDriveSpeed ≤ d ∧
      (d * (settings s).spinUpFraction).tdiv 1000 ≤ f
    let still := (mapped s (driveSpeed sd) = none ∨ ∃ d, drive = some d ∧ d < (settings s).standstillSpeed) ∧
      x.contactor = false ∧ x.outstanding = false
    (x.state = .spinningUp → spunUp → sideClose sd s =
      (s.setRoller sd { x with state := .running, sendTime := none, slip := 0 }, [.spinUpOk sd], SideTrace.none)) ∧
    (x.state = .coasting → still →
      sideClose sd s = (s.setRoller sd { x with state := .stopped }, [.standstill sd], SideTrace.none)) ∧
    (x.state = .spinningUp ∧ ¬ spunUp ∨ x.state = .coasting ∧ ¬ still ∨ x.state = .stopped ∨ x.state = .held →
      sideClose sd s = (s, [], SideTrace.none))) ∧
  (∀ (sd : Side) (s : State), (s.roller sd).state = .running →
    let slip := match value s (driveSpeed sd), value s (followSpeed sd) with
      | some d, some f =>
        if (settings s).minDriveSpeed ≤ d then max 0 (min 1000 (((d - f) * 1000).tdiv d)) else (s.roller sd).slip
      | _, _ => (s.roller sd).slip
    let u := s.setRoller sd { s.roller sd with slip }
    ((s.roller sd).watch = none → (sideClose sd s).1 = u ∧ (sideClose sd s).2 = ([], SideTrace.none)) ∧
    (∀ w, (s.roller sd).watch = some w →
      let engaged := w.engaged = true ∨ ∃ b, value s (brakeForce sd) = some b ∧ (limits s).engageForce ≤ b
      let count := if engaged ∧ (limits s).lockSlip ≤ slip then w.count + 1 else 0
      ((limits s).lockConfirm ≤ count →
        (sideClose sd s).1 = (offerStop sd u).1.setRoller sd { (offerStop sd u).1.roller sd with
          state := .coasting, sendTime := none, watch := none, window := 0 } ∧
        (sideClose sd s).2.2.lock = true) ∧
      (count < (limits s).lockConfirm →
        ((sideClose sd s).1.roller sd).watch = some { engaged := decide engaged, count } ∧
        ((sideClose sd s).1.roller sd).state = .running ∧ (sideClose sd s).2.2.lock = false ∧
        (sideClose sd s).1.roller (otherSide sd) = s.roller (otherSide sd) ∧
        (sideClose sd s).1.head = s.head))) ∧
  (∀ (sd : Side) (s : State),
    (∀ cf nf : Nat, (settings s).followerCircumference = some cf → (settings s).pulsesPerRev = some nf →
      incrementK s = (2 * (2 ^ 32 * cf) + (limits s).wheelCircumference * nf) /
        (2 * ((limits s).wheelCircumference * nf))) ∧
    (∀ n : Nat, value s (followPulses sd) = some (n : Int) →
      let sum := (s.roller sd).acc.toNat + n * (s.roller sd).increment
      (accumulate sd s).1 = s.setRoller sd { s.roller sd with
        acc := BitVec.ofNat 32 (sum % 2 ^ 32),
        window := if 2 ^ 32 ≤ sum then min ((s.roller sd).window + 1) 255 else (s.roller sd).window } ∧
      (accumulate sd s).2.carry = decide (2 ^ 32 ≤ sum) ∧
      (accumulate sd s).2.window = some ((s.roller sd).window, decide (2 ^ 32 ≤ sum))))


/-! ### What a tick close does, by row -/

/-- LOCK, REVOLUTION_CARRY, RELEASE, PRESENCE_COUNT_REACHED and GUIDE_BARS: when the tick close that a due carry
brings meets the row's rule, in the state in which the consumers take the set, the row is that tick issue (R25,
R90, R104, R117, R118, R123, R130; that the row is the whole tick issue is the model's reading, log entry 5). The order of the
consumers in it, so that the bars of A come before the end of a measured step and the Plate Unit before the presence
test of B, is the model's choice (log entry 4). The presence test of a close of B, outside
a WEIGH that settles: a close at which every mapped presence sensor delivers 1 (AXLE_IN) or 0 (AXLE_OUT) advances the
count, any other sets it to 0, and the fifth ends the step COMPLETED with outcome OK (R90; a value delivered excused
does not satisfy it by the model's reading, log entry 10). The bars of a close of A in a measuring step: at the bar
interval the bar phase is 0 and the GUIDE_BARS frame with the values present is offered, one refused counted as dropped;
else the phase advances (R104). -/
def Obligations.CloseRowsAreTheirTickIssue : Prop :=
  (∀ (sd : Side) (o : CloseOrder) (x : OpenTick) (s : State), closesTick s .a x →
    let u := deliver .a x (s.atClose .a)
    let issued : Host.Outcome State Fault Refusal := .next (issueTick .a (tickClose .a x o (s.atClose .a)).1)
    u.lane.state ≠ .exit →
    (∀ w, (u.roller sd).state = .running → (u.roller sd).watch = some w →
      ((limits u).lockConfirm ≤ (newWatch sd u (newSlip sd u) w).count → exec (.lock sd o) s = issued) ∧
      ((newWatch sd u (newSlip sd u) w).count < (limits u).lockConfirm → runningKind u .hold = true →
        (u.roller sd).window ≠ 0 → 2 ^ 32 ≤ pulseSum sd u → exec (.revolutionCarry sd o) s = issued)) ∧
    (∀ v : Int, measuringRuns u = true → u.eval.activity = .force → (u.eval.sides.get sd).phase = .engaged →
      (sideClose sd u).2.2.lock = false → value u (brakeForce sd) = some v → v < (limits u).releaseForce →
      (limits u).releaseConfirm ≤ (u.eval.sides.get sd).release + 1 → exec (.release sd o) s = issued)) ∧
  (∀ (o : CloseOrder) (x : OpenTick) (s : State),
    (closesTick s .b x →
      let u := deliver .b x (s.atClose .b)
      u.lane.state ≠ .exit → u.eval.activity ≠ .settling → u.engine.phase = .running → 4 ≤ u.engine.presence →
      (∃ want : Int, (currentKind u = some .axleIn ∧ want = 1 ∨ currentKind u = some .axleOut ∧ want = 0) ∧
        deliversIfMapped u .axlePresentL want = true ∧ deliversIfMapped u .axlePresentR want = true) →
      exec (.presenceCountReached o) s =
        .next (issueTick .b (tickClose .b x o (s.atClose .b)).1)) ∧
    (closesTick s .a x →
      let u := deliver .a x (s.atClose .a)
      u.lane.state ≠ .exit → measuringRuns u = true → (settings u).barInterval ≤ u.engine.barPhase + 1 →
      exec (.guideBars o) s = .next (issueTick .a (tickClose .a x o (s.atClose .a)).1))) ∧
  (∀ s : State,
    let counted (n : Nat) : State := { s with engine := { s.engine with presence := n } }
    let tests (want : Int) := s.engine.phase = .running ∧
      (currentKind s = some .axleIn ∧ want = 1 ∨ currentKind s = some .axleOut ∧ want = 0)
    (s.eval.activity ≠ .settling → (consumersB s).1 = (presenceClose (plateClose s).1).1) ∧
    ((∀ want, ¬ tests want) → presenceClose s = (s, false)) ∧
    (∀ want, tests want →
      let met := ∀ q ∈ ([.axlePresentL, .axlePresentR] : List Quantity), mapped s q = none ∨ delivers s q want = true
      (¬ met → presenceClose s = (counted 0, false)) ∧
      (met → s.engine.presence < 4 → presenceClose s = (counted (s.engine.presence + 1), false)) ∧
      (met → 4 ≤ s.engine.presence → presenceClose s =
        (finishStep { ending := .completed, outcome := .ok } (counted (s.engine.presence + 1)), true)))) ∧
  (∀ s : State,
    let phase (n : Nat) : State := { s with engine := { s.engine with barPhase := n } }
    let forces := [value s .brakeForceL, value s .brakeForceR, value s .pedalForce]
    let present (v : Option Int) (bit : Nat) : Nat := if v.isSome then bit else 0
    let frame : Frame := originate ((displayNode s).getD 0) 0x07 (BitVec.ofNat 8 (present (value s .brakeForceL) 1 +
      present (value s .brakeForceR) 2 + present (value s .pedalForce) 4) :: (forces.filterMap id).flatMap signed24)
    (measuringRuns s = false → barsClose s = (s, false)) ∧
    (measuringRuns s = true → s.engine.barPhase + 1 < (settings s).barInterval →
      barsClose s = (phase (s.engine.barPhase + 1), false)) ∧
    (measuringRuns s = true → s.engine.barPhase + 1 = (settings s).barInterval → s.head.tx ≠ .idle →
      barsClose s = (if s.head.queue.length < 16 then
          { phase 0 with head := { s.head with queue := s.head.queue ++ [frame] } }
        else { phase 0 with live := { s.live with droppedBars := s.live.droppedBars + 1 } }, true)))


/-! ### Steps and guidance (05) -/

/-- STEP_TIMEOUT ends the running step TIMEOUT, with the outcome of its action: SKIPPED, ABORTED, or REPEAT while
attempts are left and else ABORTED (R97 to R100). Of an AXLE_IN in TESTING: by REPEAT with attempts left the repeat is counted and the step begun
again with the next attempt and its counts at 0 (R97, R98); before its time nothing changes (the model's choice for
a row whose event has not come, log entry 1). A step that ends OK or SKIPPED is followed by the
first runnable step after it in its pass, else by the first one of the next pass that holds one, else by FINISH with
axle index 0, park-axles-only steps being passed over for the other axles: in PAUSING it waits in PAUSED, its
side marks clear (the model's choice, log entry 67), and in TESTING an AXLE_IN, AXLE_OUT or WEIGH whose begin finds no
cause runs, attempt 1 (R78, R86, R88, R89, R99). -/
def Obligations.StepTimeoutRepeats : Prop :=
  (∀ (p : PlanStep) (v : VehicleRecord) (s : State), currentStep s = some p →
    (s.engine.elapsed < p.timeout → exec .stepTimeout s = .next s) ∧
    (p.timeout ≠ 0 → p.timeout ≤ s.engine.elapsed → s.engine.phase = .running →
      exec .stepTimeout s = .next (finishStep { ending := .timeout, outcome := match p.action with
        | .rep => if s.engine.attempt - 1 < p.repeatLimit then .rep else .aborted
        | .skip => .skipped
        | .abort => .aborted } s)) ∧
    (p.kind = .axleIn → p.action = .rep → p.timeout ≠ 0 → p.timeout ≤ s.engine.elapsed →
      s.engine.phase = .running → s.engine.attempt - 1 < p.repeatLimit → s.lane.state = .testing →
      s.vehicle = some v → anyOvertemp s = false →
      (∀ q ∈ neededBy .axleIn, (mapped s q).isSome = true → (s.qty q).stale = false) →
      ∃ t, exec .stepTimeout s = .next t ∧ t.vehicle = some { v with repeats := min (v.repeats + 1) 65535 } ∧
        t.engine = { s.engine with attempt := s.engine.attempt + 1, elapsed := 0, presence := 0, barPhase := 0,
                                   marks := { left := .clear, right := .clear }, waitOccasion := .rep,
                                   waitTaken := false, pendingGuide := t.engine.pendingGuide } ∧
        t.lane = s.lane ∧ t.eval = Evaluator.reset ∧
        t = { s with head := t.head, urgent := t.urgent, headPlace := t.headPlace, station := t.station,
                     quantities := t.quantities, vehicle := t.vehicle, engine := t.engine, eval := t.eval,
                     rollers := t.rollers, live := t.live })) ∧
  (∀ (sec : List PlanStep) (park : List Nat) (n axle start : Nat),
    let runs (a i : Nat) := ∃ p, sec[i]? = some p ∧ (p.parkOnly = false ∨ a ∈ park)
    (∀ i, start ≤ i → runs axle i → (∀ j, start ≤ j → j < i → ¬ runs axle j) →
      findStep sec park n axle start = (axle, i)) ∧
    ((∀ i, start ≤ i → ¬ runs axle i) →
      (∀ a i, axle < a → a ≤ n → runs a i → (∀ j, j < i → ¬ runs a j) →
        (∀ b j, axle < b → b < a → ¬ runs b j) → findStep sec park n axle start = (a, i)) ∧
      ((∀ a j, axle < a → a ≤ n → ¬ runs a j) → findStep sec park n axle start = (0, sec.length)))) ∧
  (∀ (x : StepEnd) (plan k : Nat) (v : VehicleRecord) (p : PlanStep) (s : State), s.engine.plan = some plan →
    s.engine.step = some k → s.vehicle = some v → currentStep s = some p → p.kind ≠ .finish →
    (x.outcome = .ok ∨ x.outcome = .skipped) →
    let sec := axleSection s.working plan
    let next := findStep sec v.park v.n s.engine.axle (k + 1)
    let t := finishStep x s
    let current (e : EngineState) : EngineState := { e with
      axle := next.1, step := some next.2, waitOccasion := .advance, waitTaken := false,
      marks := { left := .clear, right := .clear } }
    (s.lane.state = .pausing →
      t.engine = { current s.engine with phase := .waiting } ∧ t.lane = { s.lane with state := .paused } ∧
      ∃ w, t.vehicle = some w ∧ w = { v with axles := w.axles }) ∧
    (∀ q, s.lane.state = .testing → sec[next.2]? = some q → (q.kind = .axleIn ∨ q.kind = .axleOut ∨ q.kind = .weigh) →
      anyOvertemp s = false → (∀ y ∈ neededBy q.kind, (mapped s y).isSome = true → (s.qty y).stale = false) →
      t.engine = { current s.engine with
        phase := .running, attempt := 1, elapsed := 0, presence := 0, barPhase := 0,
        pendingGuide := t.engine.pendingGuide } ∧
      t.lane = s.lane ∧ ∃ w, t.vehicle = some w ∧ w = { v with axles := w.axles }))

/-- STEP_TIMEOUT by ABORT, or by REPEAT with no attempt left, of a step other than FINISH, here in PAUSING: the vehicle is marked aborted and counted,
no side is left started or held, and FINISH waits as the current step in PAUSED with axle index 0 (R78, R89, R98, R100). -/
def Obligations.StepTimeoutAborts : Prop :=
  ∀ (p : PlanStep) (v : VehicleRecord) (s : State), currentStep s = some p → p.kind ≠ .finish →
    (p.action = .abort ∨ p.action = .rep ∧ p.repeatLimit ≤ s.engine.attempt - 1) → p.timeout ≠ 0 →
    p.timeout ≤ s.engine.elapsed → s.engine.phase = .running → s.lane.state = .pausing → s.vehicle = some v →
    ∃ t w, exec .stepTimeout s = .next t ∧ t.vehicle = some w ∧ w = { v with aborted := true, axles := w.axles } ∧
      t.engine.step = some (axleSection s.working (s.engine.plan.getD 0)).length ∧ t.engine.axle = 0 ∧
      t.engine.phase = .waiting ∧ t.engine.plan = s.engine.plan ∧
      t.lane = { s.lane with state := .paused } ∧ t.live.aborted = s.live.aborted + 1 ∧
      t.eval = Evaluator.reset ∧ (∀ sd, (t.roller sd).still = true ∧ (t.roller sd).watch = none) ∧
      t.clock = s.clock ∧ t.certs = s.certs ∧ t.plate = s.plate ∧ t.working = s.working

/-- A history entry is aged once 600,000 ms old and not before; a pending guidance message is offered to a place
of the head transmit queue, or taken at once by an idle transmitter for which nothing waits, and the register is then
empty; with no place it waits (R8, R103, R107). -/
def Obligations.HistoryAgesAndGuidanceWaits : Prop :=
  (∀ (sd : Side) (s : State), exec (.historyEntryAged sd) s = .next (s.setRoller sd { s.roller sd with
    history := (s.roller sd).history.map fun e =>
      if 600000 ≤ (s.clock.laneTime - e.time).toNat then { e with aged := true } else e })) ∧
  (∀ (g : GuideMessage) (s : State), s.engine.pendingGuide = some g →
    (quiet s .head → exec .pendingGuideOffer s = .next
      { s with head := { s.head with tx := .taken (guideFrame g s) },
               engine := { s.engine with pendingGuide := none } }) ∧
    (s.head.tx ≠ .idle → exec .pendingGuideOffer s = .next (if s.head.queue.length < 16 then
      { s with head := { s.head with queue := s.head.queue ++ [guideFrame g s] },
               engine := { s.engine with pendingGuide := none } }
      else s)))

/-! ### Brake measurement (07) -/

/-- The Brake Evaluator at a tick close. WEIGH at a close of B: an absent load empties both windows; otherwise each
side's value joins its window of at most the settle count, and the loads settle when both windows are full with a
spread within the stability spread (R126). A force side at a close of A: engage, peak with its pedal, lock before
release, and the release count (R128 to R132, R134); a HOLD side: lock, the extremes of the open window, and the
window judged at its end (R137, R138); imbalance of a paired close of SERVICE (R136); no side already ended changes,
and the watch of an ended side goes off (R117). A step that ends writes the mean loads, or the results of its
MEASURING sides over those held, and drops the measurement; a repeated step writes nothing (R125, R127, R133, R135,
R138). That a value delivered excused counts here is the model's reading (log entry 10). That the close which locks a HOLD
side leaves its window extremes as they were is the model's choice (log entry 64). -/
def Obligations.MeasurementAtClose : Prop :=
  (∀ s : State, 1 ≤ (settings s).settleCount →
    (value s .wheelLoadL = none ∨ value s .wheelLoadR = none →
      settleClose s = ({ s with eval := { s.eval with loads := { left := [], right := [] } } }, false)) ∧
    (∀ l r, value s .wheelLoadL = some l → value s .wheelLoadR = some r →
      let n := (settings s).settleCount
      let wl := (s.eval.loads.left ++ [(l, deliveredStale s .wheelLoadL)]).drop (s.eval.loads.left.length + 1 - n)
      let wr := (s.eval.loads.right ++ [(r, deliveredStale s .wheelLoadR)]).drop (s.eval.loads.right.length + 1 - n)
      (settleClose s).1 = { s with eval := { s.eval with loads := { left := wl, right := wr } } } ∧
      ((settleClose s).2 = true ↔ wl.length = n ∧ wr.length = n ∧
        ∀ w ∈ [wl, wr], ∀ a ∈ w, ∀ b ∈ w, a.1 - b.1 ≤ (settings s).stabilitySpread))) ∧
  (∀ (tr : Pair SideTrace) (s : State),
    let t := measureClose tr s
    t = { s with eval := t.eval, rollers := t.rollers } ∧
    t.eval = { s.eval with sides := t.eval.sides, imbalance := t.eval.imbalance } ∧
    (∀ sd,
      let lim := limits s
      let x := s.eval.sides.get sd
      let y := t.eval.sides.get sd
      let f := value s (brakeForce sd)
      let stale := x.stale || deliveredStale s (brakeForce sd) || deliveredStale s (driveSpeed sd) ||
        deliveredStale s (followSpeed sd) || (s.eval.activity == .hold && deliveredStale s (followPulses sd))
      (t.roller sd = if y.phase = .ended then { s.roller sd with watch := none, window := 0 } else s.roller sd) ∧
      (x.phase = .idle ∨ x.phase = .ended → y = x) ∧
      (s.eval.activity = .force → (x.phase = .waitingEngage ∨ x.phase = .engaged) →
        let engaged := x.phase = .engaged ∨ ∃ v, f = some v ∧ lim.engageForce ≤ v
        let higher := ∃ v, f = some v ∧ ∀ p, x.peak = some p → p < v
        let peaked := { x with
          stale, phase := .engaged, peak := if higher then f else x.peak,
          pedal := if higher then (if runningKind s .service = true then value s .pedalForce else none) else x.pedal }
        let count := if ∃ v, f = some v ∧ v < lim.releaseForce then x.release + 1 else 0
        (¬ engaged → y = { x with stale }) ∧
        (engaged → (tr.get sd).lock = true → y = { peaked with phase := .ended, ending := .locked }) ∧
        (engaged → (tr.get sd).lock = false → lim.releaseConfirm ≤ count →
          y = { peaked with release := count, phase := .ended, ending := .released }) ∧
        (engaged → (tr.get sd).lock = false → count < lim.releaseConfirm → y = { peaked with release := count })) ∧
      (s.eval.activity = .hold → (x.phase = .waitingEngage ∨ x.phase = .engaged) →
        let seen := match f, x.extremes with
          | some v, some (hi, lo) => some (max hi v, min lo v)
          | some v, none => some (v, v)
          | none, e => e
        ((tr.get sd).lock = true → y = { x with stale, phase := .ended, ending := .locked }) ∧
        ((tr.get sd).lock = false → (∀ k, (tr.get sd).window ≠ some (k, true)) →
          y = { x with stale, extremes := seen }) ∧
        (∀ k, (tr.get sd).lock = false → (tr.get sd).window = some (k, true) → x.windows < lim.ovalityWindows →
          ((k ≤ 1 ∨ seen = none ∨ ∃ hi lo, seen = some (hi, lo) ∧ hi < lim.ovalityFloor) →
            y = { x with stale, extremes := none }) ∧
          (∀ hi lo, 1 < k → seen = some (hi, lo) → lim.ovalityFloor ≤ hi →
            let new := max 0 (min 1000 (((hi - lo) * 1000).tdiv hi))
            let judged := { x with
              stale, extremes := none, windows := x.windows + 1,
              ovality := some (match x.ovality with
                | none => new
                | some old => max old new) }
            y = if x.windows + 1 = lim.ovalityWindows then { judged with phase := .ended, ending := .windows }
              else judged)))) ∧
    (let running (x : EvalSide) := x.phase = .waitingEngage ∨ x.phase = .engaged
     let shown (x : EvalSide) := x.phase = .engaged ∨ x.phase = .ended
     let paired := running s.eval.sides.left ∧ running s.eval.sides.right ∧ shown t.eval.sides.left ∧
       shown t.eval.sides.right
     (∀ f g, runningKind s .service = true → paired → value s .brakeForceL = some f → value s .brakeForceR = some g →
       (limits s).imbalanceFloor ≤ max f g →
       let new := max 0 (min 1000 (((max f g - min f g) * 1000).tdiv (max f g)))
       t.eval.imbalance = some (match s.eval.imbalance with
         | none => new
         | some old => max old new)) ∧
     ((runningKind s .service = false ∨ ¬ paired ∨ value s .brakeForceL = none ∨ value s .brakeForceR = none ∨
         ∃ f g, value s .brakeForceL = some f ∧ value s .brakeForceR = some g ∧ max f g < (limits s).imbalanceFloor) →
       t.eval.imbalance = s.eval.imbalance))) ∧
  (∀ (x : StepEnd) (k : StepKind) (v : VehicleRecord) (e : AxleEntry) (s : State), currentKind s = some k →
    s.vehicle = some v → 1 ≤ s.engine.axle → v.axles[s.engine.axle - 1]? = some e →
    let t := concludeStep x k s
    let ended (sd : Side) : EvalSide :=
      let y := s.eval.sides.get sd
      if x.ending ≠ .completed ∧ (y.phase = .waitingEngage ∨ y.phase = .engaged) then
        { y with phase := .ended, ending := .timedOut } else y
    let ran (sd : Side) := s.engine.marks.get sd = .measuring
    let load (w : List (Int × Bool)) : Load :=
      { value := max 0 (min 100000 ((w.map Prod.fst).sum.tdiv w.length)), stale := w.any (·.2) }
    let service (sd : Side) := if ran sd then
      some (ServiceSide.mk (ended sd).peak (ended sd).ending (ended sd).pedal (ended sd).stale) else e.service.get sd
    let park (sd : Side) := if ran sd then
      some (ParkSide.mk (ended sd).peak (ended sd).ending (ended sd).stale) else e.park.get sd
    let hold (sd : Side) := if ran sd then
      some (HoldSide.mk (if (limits s).ovalityWindows ≤ (ended sd).windows then (ended sd).ovality else none)
        (ended sd).ending (ended sd).windows (ended sd).stale) else e.hold.get sd
    t.eval = Evaluator.reset ∧ (t.vehicle.map fun u => u.axles) = some (v.axles.set (s.engine.axle - 1)
      (if x.outcome = .rep then e
       else match k with
        | .weigh => if x.ending = .completed then
            { e with loads := some { left := load s.eval.loads.left, right := load s.eval.loads.right } } else e
        | .service => { e with service := { left := service .left, right := service .right },
                               imbalance := if ran .left ∨ ran .right then s.eval.imbalance else e.imbalance }
        | .park => { e with park := { left := park .left, right := park .right } }
        | .hold => { e with hold := { left := hold .left, right := hold .right } }
        | .axleIn | .axleOut | .spin | .stop | .finish => e)))

/-! ### Evaluation (07) -/

/-- The overall verdict: FAIL when some item fails; otherwise INCOMPLETE when some item is NOT_EVALUATED or the
vehicle was aborted; otherwise PASS (R145). The items: the service ratio applies when the axle section holds a SERVICE
step, the park ratio when it holds a PARK step and the vehicle has park axles, an axle's imbalance and the ovality of
its sides when its pass holds a runnable SERVICE and HOLD step, its side-slip when there is a plate head; one that does
not apply has no value and no verdict, one that applies without a value is NOT_EVALUATED, and the others are judged by
the class's limits. Lock credit, which passes the service ratio, asks for the ratio and for every side ended LOCKED
(R143, R144). FINISH evaluates the record by the class's limits and the plan that ran (R140). -/
def Obligations.OverallVerdictDecided : Prop :=
  (∀ (lim : ClassLimits) (sec : List PlanStep) (plate : Bool) (v : VehicleRecord),
    let r := evaluate lim sec plate v
    let items := r.serviceVerdict :: r.parkVerdict :: r.axles.flatMap fun a =>
      [a.imbalanceVerdict, a.ovalityVerdict.left, a.ovalityVerdict.right, a.sideSlipVerdict]
    (Verdict.fail ∈ items → r.overall = .fail) ∧
    (Verdict.fail ∉ items → Verdict.notEvaluated ∉ items → v.aborted = false → r.overall = .pass) ∧
    (Verdict.fail ∉ items → (Verdict.notEvaluated ∈ items ∨ v.aborted = true) → r.overall = .incomplete) ∧
    (v.aborted = true → r.overall ≠ .pass)) ∧
  (∀ (lim : ClassLimits) (sec : List PlanStep) (plate : Bool) (v : VehicleRecord),
    let r := evaluate lim sec plate v
    let judged (applies : Prop) (x : Option Int) (good : Int → Prop) (y : Verdict) : Prop :=
      (¬ applies → y = .notApplicable) ∧ (applies → x = none → y = .notEvaluated) ∧
      ∀ z, applies → x = some z → (good z → y = .pass) ∧ (¬ good z → y = .fail)
    let service := ∃ p ∈ sec, p.kind = .service
    let park := v.park ≠ [] ∧ ∃ p ∈ sec, p.kind = .park
    (r.lockCredit = true ↔ service ∧ (serviceRatio v).isSome = true ∧
      ∀ e ∈ v.axles, ∀ sd, ∃ y, e.service.get sd = some y ∧ y.ending = .locked) ∧
    (service → r.service = serviceRatio v) ∧ (¬ service → r.service = none) ∧
    judged service (serviceRatio v) (fun z => lim.serviceMin ≤ z ∨ r.lockCredit = true) r.serviceVerdict ∧
    (park → r.park = parkRatio v) ∧ (¬ park → r.park = none) ∧
    judged park (parkRatio v) (fun z => lim.parkMin ≤ z) r.parkVerdict ∧
    r.axles.length = v.axles.length ∧
    ∀ (i : Nat) (e : AxleEntry) (a : AxleResults), v.axles[i]? = some e → r.axles[i]? = some a →
      let has (k : StepKind) := ∃ p ∈ sec, p.kind = k ∧ (p.parkOnly = false ∨ i + 1 ∈ v.park)
      (has .service → a.imbalance = e.imbalance) ∧ (¬ has .service → a.imbalance = none) ∧
      judged (has .service) e.imbalance (fun z => z ≤ lim.imbalanceMax) a.imbalanceVerdict ∧
      (∀ sd, let oval := (e.hold.get sd).bind (·.ovality)
        (has .hold → a.ovality.get sd = oval) ∧ (¬ has .hold → a.ovality.get sd = none) ∧
        judged (has .hold) oval (fun z => z ≤ lim.ovalityMax) (a.ovalityVerdict.get sd)) ∧
      (plate = true → a.plate = e.plate) ∧ (plate = false → a.plate = none) ∧
      judged (plate = true) (e.plate.bind (·.value)) (fun z => -lim.sideSlipMax ≤ z ∧ z ≤ lim.sideSlipMax)
        a.sideSlipVerdict) ∧
  (∀ (v : VehicleRecord) (plan : Nat) (s : State), s.vehicle = some v → s.engine.plan = some plan →
    let r := evaluate (limits s) (axleSection s.working plan) (hasPlateHead s) v
    (evaluateVehicle s).vehicle = some { v with results := some r } ∧
    evaluateVehicle s = { s with vehicle := (evaluateVehicle s).vehicle, station := (evaluateVehicle s).station,
                                 live := (evaluateVehicle s).live })

/-- The service ratio is the sum of all service peaks × 1000 over the sum of all loads, truncated and at most
9,999; the park ratio takes the peaks of the park axles only; either is absent when a part it needs is, or when
the loads sum to 0 (R141, R142): the service ratio when an axle lacks loads or a service peak, the park ratio when
an axle lacks loads, a park axle lacks a park peak, or there is no park axle. -/
def Obligations.RatiosFromTheRecord : Prop :=
  ∀ v : VehicleRecord,
    (∀ peaks loads : List (Int × Int),
      v.axles.map (fun e => (servicePeak e.service .left, servicePeak e.service .right)) =
        peaks.map (fun p => (some p.1, some p.2)) →
      v.axles.map (fun e => e.loads.map fun w => (w.left.value, w.right.value)) = loads.map some →
      let w := (loads.map fun p => p.1 + p.2).sum
      serviceRatio v = if w = 0 then none
        else some (min (((peaks.map fun p => p.1 + p.2).sum * 1000).tdiv w) 9999)) ∧
    (∀ (peaks loads : List (Int × Int)), v.park ≠ [] →
      (v.park.filterMap fun a => v.axles[a - 1]?).map (fun e => (parkPeak e.park .left, parkPeak e.park .right)) =
        peaks.map (fun p => (some p.1, some p.2)) →
      v.axles.map (fun e => e.loads.map fun w => (w.left.value, w.right.value)) = loads.map some →
      let w := (loads.map fun p => p.1 + p.2).sum
      parkRatio v = if w = 0 then none
        else some (min (((peaks.map fun p => p.1 + p.2).sum * 1000).tdiv w) 9999)) ∧
    ((∃ e ∈ v.axles, e.loads = none ∨ servicePeak e.service .left = none ∨ servicePeak e.service .right = none) →
      serviceRatio v = none) ∧
    ((v.park = [] ∨ (∃ e ∈ v.axles, e.loads = none) ∨
        ∃ a ∈ v.park, ∃ e, v.axles[a - 1]? = some e ∧ (parkPeak e.park .left = none ∨ parkPeak e.park .right = none)) →
      parkRatio v = none)

/-! ### Side slip (08) -/

/-- The outcome of a closed crossing, the first of R152's table that applies, with its speed, its truncated and
clamped side-slip value, and its clamped mark (R152). -/
def Obligations.CrossingOutcome : Prop :=
  ∀ (x : LaneSettings) (reversed : Bool) (d s : Option Int) (t : Nat), 1 ≤ t → 1 ≤ x.plateMinTravel →
    let c := judgeCrossing x reversed d s t
    let back := reversed = true ∨ ∃ z, s = some z ∧ z ≤ 0
    (back → c.outcome = .reverse ∧ c.value = none) ∧
    (¬ back → (d = none ∨ s = none) → c.outcome = .invalidData ∧ c.value = none) ∧
    (∀ a b : Int, ¬ back → d = some a → s = some b →
      let v := (b * 1000).tdiv t
      let q := (a * 100).tdiv b
      (b < x.plateMinTravel → c.outcome = .invalidShort ∧ c.value = none) ∧
      (x.plateMinTravel ≤ b → (v < x.speedLow ∨ x.speedHigh < v) →
        c.outcome = .invalidSpeed ∧ c.value = none ∧ c.v = some v) ∧
      (x.plateMinTravel ≤ b → x.speedLow ≤ v → v ≤ x.speedHigh →
        c.outcome = .valid ∧ c.v = some v ∧ c.value = some (max (-9999) (min 9999 q)) ∧
        (c.clamped = true ↔ q < -9999 ∨ 9999 < q)))

/-- The plate at a tick close of B: off, it does nothing; it is CLEAR once 0 is delivered; CLEAR, a 1 opens a
crossing with that close as its start and last occupied close; open, a 1 moves the last occupied close on, with
the reversed mark for a lesser travel; neither 1 nor 0 only keeps the stale mark up (R149, R150; a value other than
these two, and one delivered excused, counts as neither by the model's choice, log entries 50 and 10). The figures of a closed crossing come from its
start and last occupied close (R151). A crossing that closes: a REVERSE one is counted and writes nothing; another
is filed under the next axle, once and in order, or counted as extra beyond the declared axles; the crossing number
advances to at most 255 and the detection is clear for the next (R151, R153 to R155; that start, last close and
marks are none and clear after it is the model's choice, log entry 51). -/
def Obligations.CrossingAttributed : Prop :=
  (∀ s : State,
    let point : PlatePoint := { time := s.clock.laneTime, lateral := value s .plateLateral, travel := value s .plateTravel }
    let stale := deliveredStale s .plateOccupied || deliveredStale s .plateTravel || deliveredStale s .plateLateral
    let back := ∃ new old, value s .plateTravel = some new ∧ s.plate.last.bind (·.travel) = some old ∧ new < old
    (s.plate.detection = .off → plateClose s = (s, false)) ∧
    (s.plate.detection = .waitClear → plateClose s =
      (if delivers s .plateOccupied 0 then { s with plate := { s.plate with detection := .clear } } else s, false)) ∧
    (s.plate.detection = .clear → plateClose s =
      (if delivers s .plateOccupied 1 then
        { s with plate := { s.plate with
            detection := .opened, start := some point, last := some point, reversed := false, stale } }
      else s, false)) ∧
    (s.plate.detection = .opened → delivers s .plateOccupied 1 = true →
      ∃ reversed : Bool, (reversed = true ↔ s.plate.reversed = true ∨ back) ∧
        plateClose s = ({ s with plate := { s.plate with
          reversed, last := some point, stale := s.plate.stale || stale } }, false)) ∧
    (s.plate.detection = .opened → delivers s .plateOccupied 1 = false → delivers s .plateOccupied 0 = false →
      plateClose s = ({ s with plate := { s.plate with stale := s.plate.stale || stale } }, false))) ∧
  (∀ (x : LaneSettings) (u : PlateUnit) (a b : PlatePoint), u.start = some a → u.last = some b →
    let c := crossingOf x u
    c.s = b.travel ∧ c.t = max 1 (b.time - a.time).toNat ∧
    (∀ k l, a.lateral = some k → b.lateral = some l → c.d = some (l - k)) ∧
    (a.lateral = none ∨ b.lateral = none → c.d = none)) ∧
  (∀ (v : VehicleRecord) (s : State), s.plate.detection = .opened → delivers s .plateOccupied 0 = true →
    delivers s .plateOccupied 1 = false → s.vehicle = some v →
    let c := crossingOf (settings s) s.plate
    let t := (plateClose s).1
    let filed : PlateResult :=
      { outcome := c.outcome, value := c.value, clamped := c.clamped, stale := s.plate.stale || plateStale s }
    let closed := { PlateUnit.reset with
      detection := .clear, axleCount := s.plate.axleCount, crossing := min (s.plate.crossing + 1) 255 }
    (c.outcome = .reverse → (plateClose s).2 = false ∧ t.plate = closed ∧ t.vehicle = some v ∧
      t.live.reverse = s.live.reverse + 1) ∧
    (c.outcome ≠ .reverse → s.plate.axleCount < v.n → (plateClose s).2 = true ∧
      t.plate = { closed with axleCount := s.plate.axleCount + 1 } ∧ t.live.reverse = s.live.reverse ∧
      t.vehicle = some { v with axles := v.axles.modify s.plate.axleCount fun e => { e with plate := some filed } }) ∧
    (c.outcome ≠ .reverse → v.n ≤ s.plate.axleCount → (plateClose s).2 = false ∧ t.plate = closed ∧
      t.vehicle = some { v with extra := min (v.extra + 1) 255 } ∧ t.live.reverse = s.live.reverse) ∧
    t = { s with station := t.station, plate := t.plate, vehicle := t.vehicle, live := t.live })

/-! ### Certificates (09) -/

/-- FINISH with a free place in the queue has its certificate assembled under the next number, with every field
from the record, its results and the two times, a line for each axle, and the CRC-32 of its own contents as its
check value; it joins the tail of the queue, the oldest staying as it is; with four queued nothing is assembled
(R163 to R166). The CERT frames of a certificate carry its whole record, cut into pieces of at most 112 bytes, all
full but the last, in index order, each with the number, its index and their count, to the printer station (R167,
R184). A line's stale mark is read from the axle entry as it stands at the assembly (the model's choice, log entry
61). -/
def Obligations.SegmentsRebuildTheRecord : Prop :=
  (∀ s : State, 4 ≤ s.certs.queue.length → queueCertificate s = none) ∧
  (∀ (v : VehicleRecord) (r : VehicleResults) (s : State), s.certs.queue.length < 4 → s.vehicle = some v →
    v.results = some r → v.axles.length = r.axles.length →
    ∃ t c, queueCertificate s = some t ∧ t.certs.number = s.certs.number + 1 ∧
      t.certs.queue = s.certs.queue ++ [c] ∧ t.live.certificates = s.live.certificates + 1 ∧
      c = ({ number := s.certs.number + 1, ident := v.ident, dateTime := v.dateTime, cls := v.cls,
             n := v.n, lines := c.lines, service := r.service, serviceVerdict := r.serviceVerdict, lockCredit := r.lockCredit,
             park := r.park, parkVerdict := r.parkVerdict, overall := r.overall, aborted := v.aborted,
             repeats := v.repeats, extra := v.extra, live := s.clock.live, hold := s.clock.hold,
             generation := v.generation, check := crc32 (certBody c) } : Certificate) ∧
      c.lines.length = v.axles.length ∧
      (∀ i e a, v.axles[i]? = some e → r.axles[i]? = some a → c.lines[i]? = some
        ({ axle := i + 1, parkAxle := v.park.contains (i + 1), stale := entryStale e,
           loads := { left := e.loads.map (·.left.value), right := e.loads.map (·.right.value) },
           servicePeaks := { left := servicePeak e.service .left, right := servicePeak e.service .right },
           parkPeaks := { left := parkPeak e.park .left, right := parkPeak e.park .right }, results := a } : AxleLine)) ∧
      (s.certs.queue ≠ [] → t.station = s.station ∧
        t.certs = { s.certs with number := t.certs.number, queue := t.certs.queue }) ∧
      t = { s with station := t.station, certs := t.certs, live := t.live }) ∧
  (∀ c : Certificate, (certRecord c).length ≤ 448 →
    ((segments c).map fun f => f.payload.drop 6).flatten = certRecord c ∧ (segments c).length ≤ 4 ∧
    ∀ i f, (segments c)[i]? = some f → f.dst = 61 ∧ f.src = 0 ∧ f.kind = 0x0C ∧
      f.payload.take 6 = word32 c.number ++ [BitVec.ofNat 8 (i + 1), BitVec.ofNat 8 (segments c).length] ∧
      f.payload.length ≤ 118 ∧ (i + 1 < (segments c).length → f.payload.length = 118))

/-- CERT_SEND offers every segment of the oldest certificate, when it is due and all have room, with its notice
and the count and time of the send; an idle transmitter for which nothing waits takes the first segment at once; with
too little room nothing changes. CERT_RESEND_DUE makes it due 10,000 ms
after its last send, and then sends it where there is room (R167, R168); before that time nothing changes (the
model's choice for a row whose event has not come, log entry 1). The event byte 0 of CERT_SENT is the model's reading
(log entry 55). -/
def Obligations.CertificateSent : Prop :=
  ∀ (c : Certificate) (rest : List Certificate) (s : State), s.certs.queue = c :: rest →
    (s.certs.due = true →
      let sent (station : PortState) : State := notice 0x0C (0 :: (word32 c.number ++
          BitVec.ofNat 8 (min (s.certs.sendCount + 1) 255) :: word32 s.clock.laneTime))
        { s with station,
                 certs := { s.certs with due := false, sendCount := min (s.certs.sendCount + 1) 255,
                                         lastSend := some s.clock.laneTime } }
      (∀ first more, segments c = first :: more → quiet s .station →
        exec .certSend s = .next (sent { s.station with tx := .taken first, queue := more })) ∧
      (s.station.tx ≠ .idle → s.station.queue.length + (segments c).length ≤ 32 →
        exec .certSend s = .next (sent { s.station with queue := s.station.queue ++ segments c }))) ∧
    (32 < s.station.queue.length + (segments c).length → exec .certSend s = .next s) ∧
    (∀ sent, s.certs.due = false → s.certs.lastSend = some sent →
      (10000 ≤ (s.clock.laneTime - sent).toNat →
        exec .certResendDue s = exec .certSend { s with certs := { s.certs with due := true } }) ∧
      ((s.clock.laneTime - sent).toNat < 10000 → exec .certResendDue s = .next s))

/-! ### Lane time (02, 10) -/

/-- A due lane millisecond advances lane time by one, exactly one of live and hold time of an open vehicle, and the
running time of a step that has a timeout, marks held STARTs for their test, and changes no more (R97, R110, R172,
R173); what acts at it has rows of its own (the model's reading, log entry 3). Commanded with none due it changes
nothing (the model's choice, log entry 1). -/
def Obligations.LaneMillisecondCounts : Prop :=
  ∀ s : State,
    (s.clock.msDue = false → exec .laneMillisecond s = .next s) ∧
    (s.clock.msDue = true →
      let held := s.lane.state = .pausing ∨ s.lane.state = .paused ∨ s.lane.state = .halted
      exec .laneMillisecond s = .next { s with
        clock := { s.clock with
          laneTime := s.clock.laneTime + 1, msDue := false,
          live := if s.vehicle.isSome = true ∧ ¬ held then s.clock.live + 1 else s.clock.live,
          hold := if s.vehicle.isSome = true ∧ held then s.clock.hold + 1 else s.clock.hold },
        engine := { s.engine with
          elapsed := if s.engine.phase = .running ∧ ∃ p, currentStep s = some p ∧ p.timeout ≠ 0
            then s.engine.elapsed + 1 else s.engine.elapsed },
        rollers := { s.rollers with sides :=
          { left := { s.rollers.sides.left with testDue := decide ((s.roller .left).state = .held) },
            right := { s.rollers.sides.right with testDue := decide ((s.roller .right).state = .held) } } } })

/-- A reference step, the rows that wait having been taken: each running cadence adds its increment modulo 2³² and
has a carry when the sum reaches 2³², a stopped one does not move, every thousandth step is a lane millisecond, and
nothing else changes; with no event and no freed place waiting none of the rows changes anything (R22, R172). That
a carry and a millisecond are marked due and their rows taken by the next reference step, in the order of
`waitingRows`, is the model's choice (log entries 2, 3 and 6). -/
def Obligations.ReferenceStepAdvances : Prop :=
  ∀ s : State,
    (∃ t, let w := runRows (waitingRows s) s
      exec .referenceStep s = .next t ∧
      (∀ c, (w.cad c).running = true → t.cad c = { w.cad c with
        acc := BitVec.ofNat 32 (((w.cad c).acc.toNat + (w.cad c).inc) % 2 ^ 32),
        carryDue := (w.cad c).carryDue || decide (2 ^ 32 ≤ (w.cad c).acc.toNat + (w.cad c).inc) }) ∧
      (∀ c, (w.cad c).running = false → t.cad c = w.cad c) ∧
      t.clock = { w.clock with micro := if 999 ≤ w.clock.micro then 0 else w.clock.micro + 1,
                               msDue := w.clock.msDue || decide (999 ≤ w.clock.micro) } ∧
      t = { w with cadA := t.cadA, cadB := t.cadB, clock := t.clock }) ∧
    ((∀ c, (s.cad c).carryDue = false) → s.clock.msDue = false → s.clock.micro ≠ 0 →
      (s.engine.pendingGuide = none ∨ 16 ≤ s.head.queue.length) →
      (s.certs.due = false ∨ s.certs.queue = [] ∨ 32 ≤ s.station.queue.length) → runRows (waitingRows s) s = s)

/-! ### Promises that every step keeps -/

/-- Every step keeps that no side is SPINNING_UP, RUNNING or HELD while the emergency-stop flag is set (R108,
R120). -/
def Obligations.EmergencyStopKept : Prop :=
  ∀ s t : State, estopSafe s → step s = .next t → estopSafe t

/-- Every step keeps the receive FIFOs and the transmit queues within their capacities and the two urgent places
for different sides (R4, R5, R7); that a transmitter is idle only with an empty queue, and at the head port with both
urgent places empty (R6, R8); and the certificate queue, the Sync Log with its overflow count and the start
histories within their bounds, and all sixteen quantities in their places (R107, R166, R179). -/
def Obligations.StoresKeptInBounds : Prop :=
  (∀ s t : State, portsFit s → placesDiffer s → step s = .next t → portsFit t ∧ placesDiffer t) ∧
  (∀ s t : State, idleWaitsForNothing s → step s = .next t → idleWaitsForNothing t) ∧
  (∀ s t : State, logsFit s → step s = .next t → logsFit t)


/-- Every step keeps that live time plus hold time of an open vehicle is the lane time less its open lane time
(R173). -/
def Obligations.LiveAndHoldTimesKept : Prop :=
  ∀ s t : State, timesAgree s → step s = .next t → timesAgree t
end

