-- ==== Sys2Proof/Laws/State.lean ====
section
/-! SUPPORT. The small lemmas of the state's accessors and updates: what a read gives after a write to the
same place and to another one. All true by computation. -/

namespace Sys2Proof.Machine

/-! ### Pairs -/

@[simp] theorem Pair.get_left {α : Type} (p : Pair α) : p.get .left = p.left := rfl
@[simp] theorem Pair.get_right {α : Type} (p : Pair α) : p.get .right = p.right := rfl
@[simp] theorem Pair.set_left {α : Type} (p : Pair α) (x : α) : p.set .left x = { p with left := x } := rfl
@[simp] theorem Pair.set_right {α : Type} (p : Pair α) (x : α) : p.set .right x = { p with right := x } := rfl
@[simp] theorem Pair.get_set {α : Type} (p : Pair α) (sd : Side) (x : α) : (p.set sd x).get sd = x := by
  cases sd <;> rfl
@[simp] theorem Pair.get_set_other {α : Type} (p : Pair α) (sd : Side) (x : α) :
    (p.set sd x).get (otherSide sd) = p.get (otherSide sd) := by cases sd <;> rfl
@[simp] theorem Pair.set_set {α : Type} (p : Pair α) (sd : Side) (x y : α) :
    (p.set sd x).set sd y = p.set sd y := by cases sd <;> rfl
@[simp] theorem Pair.set_get {α : Type} (p : Pair α) (sd : Side) : p.set sd (p.get sd) = p := by
  cases sd <;> rfl

/-! ### Rollers -/

@[simp] theorem roller_setRoller (s : State) (sd : Side) (r : RollerSide) : (s.setRoller sd r).roller sd = r :=
  Pair.get_set _ _ _
@[simp] theorem roller_setRoller_other (s : State) (sd : Side) (r : RollerSide) :
    (s.setRoller sd r).roller (otherSide sd) = s.roller (otherSide sd) := Pair.get_set_other _ _ _
@[simp] theorem setRoller_setRoller (s : State) (sd : Side) (r q : RollerSide) :
    (s.setRoller sd r).setRoller sd q = s.setRoller sd q := by cases sd <;> rfl
@[simp] theorem setRoller_roller (s : State) (sd : Side) : s.setRoller sd (s.roller sd) = s := by
  cases sd <;> rfl
@[simp] theorem setRoller_estop (s : State) (sd : Side) (r : RollerSide) :
    (s.setRoller sd r).rollers.estop = s.rollers.estop := rfl
@[simp] theorem setRoller_head (s : State) (sd : Side) (r : RollerSide) : (s.setRoller sd r).head = s.head := rfl
@[simp] theorem setRoller_station (s : State) (sd : Side) (r : RollerSide) :
    (s.setRoller sd r).station = s.station := rfl
@[simp] theorem setRoller_urgent (s : State) (sd : Side) (r : RollerSide) :
    (s.setRoller sd r).urgent = s.urgent := rfl
@[simp] theorem setRoller_headPlace (s : State) (sd : Side) (r : RollerSide) :
    (s.setRoller sd r).headPlace = s.headPlace := rfl
@[simp] theorem setRoller_lane (s : State) (sd : Side) (r : RollerSide) : (s.setRoller sd r).lane = s.lane := rfl
@[simp] theorem setRoller_engine (s : State) (sd : Side) (r : RollerSide) :
    (s.setRoller sd r).engine = s.engine := rfl
@[simp] theorem setRoller_clock (s : State) (sd : Side) (r : RollerSide) : (s.setRoller sd r).clock = s.clock := rfl
@[simp] theorem setRoller_live (s : State) (sd : Side) (r : RollerSide) : (s.setRoller sd r).live = s.live := rfl

/-! ### Ports -/

@[simp] theorem port_head (s : State) : s.port .head = s.head := rfl
@[simp] theorem port_station (s : State) : s.port .station = s.station := rfl
@[simp] theorem port_setPort (s : State) (p : Port) (x : PortState) : (s.setPort p x).port p = x := by
  cases p <;> rfl
@[simp] theorem port_setPort_other (s : State) (p : Port) (x : PortState) :
    (s.setPort p x).port (otherPort p) = s.port (otherPort p) := by cases p <;> rfl
@[simp] theorem setPort_setPort (s : State) (p : Port) (x y : PortState) :
    (s.setPort p x).setPort p y = s.setPort p y := by cases p <;> rfl
@[simp] theorem setPort_port (s : State) (p : Port) : s.setPort p (s.port p) = s := by cases p <;> rfl
theorem setPort_head (s : State) (x : PortState) : s.setPort .head x = { s with head := x } := rfl
theorem setPort_station (s : State) (x : PortState) : s.setPort .station x = { s with station := x } := rfl
@[simp] theorem dropFirst_station (s : State) :
    s.dropFirst .station = { s with station := { s.station with fifo := s.station.fifo.tail } } := rfl
@[simp] theorem dropFirst_head (s : State) :
    s.dropFirst .head = { s with head := { s.head with fifo := s.head.fifo.tail } } := rfl

/-! ### Cadences -/

@[simp] theorem cad_a (s : State) : s.cad .a = s.cadA := rfl
@[simp] theorem cad_b (s : State) : s.cad .b = s.cadB := rfl
@[simp] theorem cad_setCad (s : State) (c : Cadence) (x : CadenceState) : (s.setCad c x).cad c = x := by
  cases c <;> rfl
@[simp] theorem setCad_setCad (s : State) (c : Cadence) (x y : CadenceState) :
    (s.setCad c x).setCad c y = s.setCad c y := by cases c <;> rfl
theorem cad_setCad_other (s : State) {c d : Cadence} (h : c ≠ d) (x : CadenceState) :
    (s.setCad c x).cad d = s.cad d := by
  cases c <;> cases d <;> first | rfl | exact absurd rfl h

/-! ### Quantities -/

theorem quantityCode_lt (q : Quantity) : quantityCode q < 16 := by cases q <;> decide
theorem quantityCode_inj {q r : Quantity} (h : quantityCode q = quantityCode r) : q = r := by
  cases q <;> cases r <;> first | rfl | exact absurd h (by decide)
theorem qty_setQty {s : State} (h : s.quantities.length = 16) (q : Quantity) (x : QuantityState) :
    (s.setQty q x).qty q = x := by
  have := quantityCode_lt q
  simp [State.qty, State.setQty, List.getD, h, this]
theorem qty_setQty_other (s : State) {q r : Quantity} (h : q ≠ r) (x : QuantityState) :
    (s.setQty q x).qty r = s.qty r := by
  have : quantityCode q ≠ quantityCode r := fun e => h (quantityCode_inj e)
  simp [State.qty, State.setQty, List.getD, this]
@[simp] theorem setQty_length (s : State) (q : Quantity) (x : QuantityState) :
    (s.setQty q x).quantities.length = s.quantities.length := by simp [State.setQty]

/-! ### Counts -/

@[simp] theorem count_head (s : State) (f : Counters → Counters) : (s.count f).head = s.head := rfl
@[simp] theorem count_station (s : State) (f : Counters → Counters) : (s.count f).station = s.station := rfl
@[simp] theorem count_rollers (s : State) (f : Counters → Counters) : (s.count f).rollers = s.rollers := rfl
@[simp] theorem count_live (s : State) (f : Counters → Counters) : (s.count f).live = f s.live := rfl
theorem countPort_eq (s : State) (p : Port) (f : PortCounts → PortCounts) :
    s.countPort p f = { s with live := (s.countPort p f).live } := by cases p <;> rfl
theorem countQty_eq (s : State) (q : Quantity) (f : QuantityCounts → QuantityCounts) :
    s.countQty q f = { s with live := (s.countQty q f).live } := rfl

/-! ### Engine, lane, Evaluator and axle entries -/

@[simp] theorem setEngine_engine (s : State) (f : EngineState → EngineState) :
    (s.setEngine f).engine = f s.engine := rfl
@[simp] theorem setEngine_lane (s : State) (f : EngineState → EngineState) : (s.setEngine f).lane = s.lane := rfl
@[simp] theorem setEngine_rollers (s : State) (f : EngineState → EngineState) :
    (s.setEngine f).rollers = s.rollers := rfl
@[simp] theorem setEngine_vehicle (s : State) (f : EngineState → EngineState) :
    (s.setEngine f).vehicle = s.vehicle := rfl
@[simp] theorem setLane_lane (s : State) (f : LaneControl → LaneControl) : (s.setLane f).lane = f s.lane := rfl
@[simp] theorem setLane_engine (s : State) (f : LaneControl → LaneControl) : (s.setLane f).engine = s.engine := rfl
@[simp] theorem setLane_rollers (s : State) (f : LaneControl → LaneControl) :
    (s.setLane f).rollers = s.rollers := rfl
@[simp] theorem setLane_vehicle (s : State) (f : LaneControl → LaneControl) :
    (s.setLane f).vehicle = s.vehicle := rfl
@[simp] theorem resetEval_eval (s : State) : (resetEval s).eval = Evaluator.reset := rfl
@[simp] theorem setAxle_engine (s : State) (k : Nat) (f : AxleEntry → AxleEntry) :
    (s.setAxle k f).engine = s.engine := rfl
@[simp] theorem watchesOff_roller (s : State) (sd : Side) :
    (watchesOff s).roller sd = (s.roller sd).watchOff := by cases sd <;> rfl

end Sys2Proof.Machine
end

