-- ==== Sys2Proof/Laws/Ops.lean ====
section
/-! SUPPORT. What each shared operation can do, said once: the parts of the state it may replace, with what is
sure of them. A later proof cites these and does not unfold the operation. -/

namespace Sys2Proof.Machine

/-- What every offer and every taking leaves of a port: its receiver and FIFO, the bound of its queue, and that its
transmitter is idle only with an empty queue; none of them makes it idle. -/
structure KeepsPort (p : Port) (a b : PortState) : Prop where
  rx : b.rx = a.rx
  fifo : b.fifo = a.fifo
  fits : a.queue.length ≤ queueCap p → b.queue.length ≤ queueCap p
  wakes : (a.tx = .idle → a.queue = []) → b.tx = .idle → a.tx = .idle ∧ b.queue = []

theorem KeepsPort.refl (p : Port) (a : PortState) : KeepsPort p a a := ⟨rfl, rfl, id, fun h e => ⟨e, h e⟩⟩
theorem KeepsPort.trans {p : Port} {a b c : PortState} (h : KeepsPort p a b) (k : KeepsPort p b c) :
    KeepsPort p a c where
  rx := k.rx.trans h.rx
  fifo := k.fifo.trans h.fifo
  fits := fun x => k.fits (h.fits x)
  wakes := fun x e =>
    have y := k.wakes (fun z => (h.wakes x z).2) e
    ⟨(h.wakes x y.1).1, y.2⟩

/-- The counts with a port's transmit overrun count replaced. -/
def overrunCount (l : Counters) (p : Port) (n : Word32) : Counters :=
  match p with
  | .head => { l with head := { l.head with txOverrun := n } }
  | .station => { l with station := { l.station with txOverrun := n } }

/-! ### Transmitters and offers -/

/-- A station transmitter that stays idle was idle, and nothing waits for it (R6). -/
theorem takeStation_idle {s : State} (h : (takeStation s).station.tx = .idle) :
    s.station.tx = .idle ∧ s.station.queue = [] ∧ takeStation s = s := by
  unfold takeStation at h ⊢
  split at h
  next e =>
    split at h
    · cases h
    next q => simp only [e, q, and_self]
  next e => exact absurd h e

/-- A head transmitter that stays idle was idle, and nothing waits for it (R8). -/
theorem takeHead_idle {s : State} (h : (takeHead s).head.tx = .idle) :
    s.head.tx = .idle ∧ s.head.queue = [] ∧ s.urgent = none ∧ s.headPlace = none ∧ takeHead s = s := by
  unfold takeHead at h ⊢
  split at h
  next e =>
    split at h
    · cases h
    next u =>
      split at h
      · cases h
      next v =>
        split at h
        · cases h
        next q => simp only [e, u, v, q, and_self]
  next e => exact absurd h e

/-- What a head transmitter that stays idle leaves, said of its result. -/
theorem takeHead_leaves {s t : State} {x : PortState} {u v : Option WaitingStop}
    (e : takeHead s = { t with head := x, urgent := u, headPlace := v }) (h : x.tx = .idle) :
    s.head.tx = .idle ∧ x.queue = [] ∧ u = none ∧ v = none := by
  have i := takeHead_idle (s := s) (by rw [e]; exact h)
  have j : s = { t with head := x, urgent := u, headPlace := v } := i.2.2.2.2.symm.trans e
  exact ⟨i.1, by rw [j] at i; exact ⟨i.2.1, i.2.2.1, i.2.2.2.1⟩⟩

theorem takeStation_only (s : State) :
    ∃ x, takeStation s = { s with station := x } ∧ KeepsPort .station s.station x := by
  unfold takeStation
  split
  · split
    next f rest h =>
      exact ⟨_, rfl, rfl, rfl, by simp only [h, List.length_cons]; omega, fun _ e => nomatch e⟩
    · exact ⟨_, rfl, KeepsPort.refl _ _⟩
  · exact ⟨_, rfl, KeepsPort.refl _ _⟩

theorem takeHead_only (s : State) :
    ∃ x u v, takeHead s = { s with head := x, urgent := u, headPlace := v } ∧ KeepsPort .head s.head x ∧
      (u = s.urgent ∨ u = none) ∧ (v = s.headPlace ∨ v = none) := by
  unfold takeHead
  split
  · split
    · exact ⟨_, _, _, rfl, ⟨rfl, rfl, id, fun _ e => nomatch e⟩, .inr rfl, .inl rfl⟩
    · split
      · exact ⟨_, _, _, rfl, ⟨rfl, rfl, id, fun _ e => nomatch e⟩, .inl rfl, .inr rfl⟩
      · split
        next f rest h =>
          exact ⟨_, _, _, rfl,
            ⟨rfl, rfl, by simp only [h, List.length_cons]; omega, fun _ e => nomatch e⟩, .inl rfl, .inl rfl⟩
        · exact ⟨_, _, _, rfl, KeepsPort.refl _ _, .inl rfl, .inl rfl⟩
  · exact ⟨_, _, _, rfl, KeepsPort.refl _ _, .inl rfl, .inl rfl⟩

/-- A busy head transmitter takes nothing. -/
theorem takeHead_busy {s : State} (h : s.head.tx ≠ .idle) : takeHead s = s := by
  unfold takeHead; split
  · contradiction
  · rfl

/-- A busy station transmitter takes nothing. -/
theorem takeStation_busy {s : State} (h : s.station.tx ≠ .idle) : takeStation s = s := by
  unfold takeStation; split
  · contradiction
  · rfl

/-- An offer to a busy port: the tail of the queue, or refused (R5). -/
theorem offer_busy {p : Port} {s : State} (f : Frame) (h : (s.port p).tx ≠ .idle) :
    offer p f s =
      if (s.port p).queue.length < queueCap p then
        (s.setPort p { s.port p with queue := (s.port p).queue ++ [f] }, true) else (s, false) := by
  cases p with
  | head => unfold offer; simp only [hasRoom, decide_eq_true_eq]; split
            · rw [show takeNext .head = takeHead from rfl, takeHead_busy]; exact h
            · rfl
  | station => unfold offer; simp only [hasRoom, decide_eq_true_eq]; split
               · rw [show takeNext .station = takeStation from rfl, takeStation_busy]; exact h
               · rfl

theorem offer_station_only (f : Frame) (s : State) :
    ∃ x, (offer .station f s).1 = { s with station := x } ∧ KeepsPort .station s.station x := by
  unfold offer
  split
  next h =>
    obtain ⟨x, e, k⟩ := takeStation_only
      (s.setPort .station { s.station with queue := s.station.queue ++ [f] })
    refine ⟨x, e, k.rx, k.fifo, fun _ => k.fits ?_, fun _ i => ?_⟩
    · have h' : s.station.queue.length < queueCap .station := of_decide_eq_true h
      simp only [setPort_station, List.length_append, List.length_singleton]; omega
    · have j := takeStation_idle (s := s.setPort .station { s.station with queue := s.station.queue ++ [f] })
        (by rw [e]; exact i)
      exact absurd j.2.1 (List.append_ne_nil_of_right_ne_nil _ (List.cons_ne_nil _ _))
  · exact ⟨_, rfl, KeepsPort.refl _ _⟩

theorem offer_head_only (f : Frame) (s : State) :
    ∃ x u v, (offer .head f s).1 = { s with head := x, urgent := u, headPlace := v } ∧
      KeepsPort .head s.head x ∧ (u = s.urgent ∨ u = none) ∧ (v = s.headPlace ∨ v = none) := by
  unfold offer
  split
  next h =>
    obtain ⟨x, u, v, e, k, hu, hv⟩ := takeHead_only
      (s.setPort .head { s.head with queue := s.head.queue ++ [f] })
    refine ⟨x, u, v, e, ⟨k.rx, k.fifo, fun _ => k.fits ?_, fun _ i => ?_⟩, hu, hv⟩
    · have h' : s.head.queue.length < queueCap .head := of_decide_eq_true h
      simp only [setPort_head, List.length_append, List.length_singleton]; omega
    · have j := takeHead_idle (s := s.setPort .head { s.head with queue := s.head.queue ++ [f] })
        (by rw [e]; exact i)
      exact absurd j.2.1 (List.append_ne_nil_of_right_ne_nil _ (List.cons_ne_nil _ _))
  · exact ⟨_, _, _, rfl, KeepsPort.refl _ _, .inl rfl, .inl rfl⟩

theorem offerCounted_station_only (f : Frame) (s : State) :
    ∃ x n, offerCounted .station f s = { s with station := x, live := overrunCount s.live .station n } ∧
      KeepsPort .station s.station x := by
  obtain ⟨x, e, k⟩ := offer_station_only f s
  unfold offerCounted
  simp only [e]
  split
  · exact ⟨x, s.live.station.txOverrun, rfl, k⟩
  · exact ⟨x, _, rfl, k⟩

theorem offerCounted_head_only (f : Frame) (s : State) :
    ∃ x u v n, offerCounted .head f s =
        { s with head := x, urgent := u, headPlace := v, live := overrunCount s.live .head n } ∧
      KeepsPort .head s.head x ∧ (u = s.urgent ∨ u = none) ∧ (v = s.headPlace ∨ v = none) := by
  obtain ⟨x, u, v, e, k, hu, hv⟩ := offer_head_only f s
  unfold offerCounted
  simp only [e]
  split
  · exact ⟨x, u, v, s.live.head.txOverrun, rfl, k, hu, hv⟩
  · exact ⟨x, u, v, _, rfl, k, hu, hv⟩

/-! ### Notices and replies -/

theorem notice_only (code : Byte) (fields : List Byte) (s : State) :
    ∃ x n, notice code fields s = { s with station := x, live := overrunCount s.live .station n } ∧
      KeepsPort .station s.station x := offerCounted_station_only _ s

theorem reply_only (src : Nat) (code status : Byte) (content : List Byte) (s : State) :
    ∃ x n, reply src code status content s = { s with station := x, live := { s.live with droppedReplies := n } } ∧
      KeepsPort .station s.station x := by
  unfold reply
  generalize originate src kindMreply (code :: status :: content) = f
  obtain ⟨x, e, k⟩ := offer_station_only f s
  simp only [e]
  split
  · exact ⟨x, s.live.droppedReplies, rfl, k⟩
  · exact ⟨x, _, rfl, k⟩

theorem staleNotice_only (q : Quantity) (c : StaleCondition) (b : Bool) (s : State) :
    ∃ x n, staleNotice q c b s = { s with station := x, live := overrunCount s.live .station n } ∧
      KeepsPort .station s.station x := notice_only _ _ s

theorem policyNotice_only (sd : Side) (o : Origin) (a : PolicyAction) (r : Option PolicyReason) (s : State) :
    ∃ x n, policyNotice sd o a r s = { s with station := x, live := overrunCount s.live .station n } ∧
      KeepsPort .station s.station x := notice_only _ _ s

theorem syncNotice_only (c : SyncCode) (o : SyncSource) (b : Bool) (s : State) :
    ∃ x n, syncNotice c o b s = { s with station := x, live := overrunCount s.live .station n } ∧
      KeepsPort .station s.station x := notice_only _ _ s

/-! ### STOPs -/

theorem placeStop_only (sd : Side) (f : Frame) (s : State) :
    ∃ u v, placeStop sd f s = { s with urgent := u, headPlace := v } ∧
      (placesDiffer s → placesDiffer { s with urgent := u, headPlace := v }) := by
  unfold placeStop
  split
  · exact ⟨_, _, rfl, id⟩
  next h =>
    rw [Bool.or_eq_true, not_or] at h
    split
    · refine ⟨_, _, rfl, fun _ a b ha hb => ?_⟩
      cases ha
      have hb' : s.headPlace = some b := hb
      have h2 := h.2
      simp only [hb', Option.any_some, beq_iff_eq] at h2
      exact fun e => h2 e.symm
    · refine ⟨_, _, rfl, fun _ a b ha hb => ?_⟩
      cases hb
      have ha' : s.urgent = some a := ha
      have h1 := h.1
      simpa [ha'] using h1

/-- A STOP offered touches the head port, the urgent places and the side's outstanding START, and nothing else; it
leaves nothing waiting at an idle transmitter. -/
theorem offerStop_only (sd : Side) (s : State) :
    ∃ x u v b, (offerStop sd s).1 =
        { s.setRoller sd { s.roller sd with outstanding := b } with head := x, urgent := u, headPlace := v } ∧
      KeepsPort .head s.head x ∧
      (placesDiffer s → placesDiffer { s with urgent := u, headPlace := v }) ∧
      (b = (s.roller sd).outstanding ∨ b = false) ∧ (x.tx = .idle → u = none ∧ v = none) := by
  have hf : (s.head.queue.filter fun f => !isStart sd f).length ≤ s.head.queue.length := List.length_filter_le _ _
  unfold offerStop
  dsimp only
  by_cases hq : startQueued sd s
  · simp only [hq, if_true]
    obtain ⟨u, v, e, k⟩ := placeStop_only sd (stopFrame ((cabinetNode s).getD 0) sd)
      (s.setRoller sd { s.roller sd with outstanding := false })
    obtain ⟨u', v', e', k'⟩ := placeStop_only sd (stopFrame ((cabinetNode s).getD 0) sd)
      (State.setRoller { s with head := { s.head with queue := s.head.queue.filter fun f => !isStart sd f } } sd
        { s.roller sd with outstanding := false })
    obtain ⟨x, a, b, e2, k2, ha, hb⟩ := takeHead_only
      (placeStop sd (stopFrame ((cabinetNode s).getD 0) sd)
        (State.setRoller { s with head := { s.head with queue := s.head.queue.filter fun f => !isStart sd f } } sd
          { s.roller sd with outstanding := false }))
    refine ⟨x, a, b, false, ?_, ?_, ?_, .inr rfl, fun h => (takeHead_leaves e2 h).2.2⟩
    · refine e2.trans ?_
      rw [e']; rfl
    · have i := takeHead_leaves e2
      rw [e'] at k2 i
      exact ⟨k2.rx, k2.fifo, fun h => k2.fits (Nat.le_trans hf h), fun _ h => ⟨(i h).1, (i h).2.1⟩⟩
    · intro hp p q hp1 hq1
      rw [e'] at ha hb
      have hk := k' hp
      rcases ha with ha | ha
      · rcases hb with hb | hb
        · exact hk p q (ha ▸ hp1) (hb ▸ hq1)
        · simp [hb] at hq1
      · simp [ha] at hp1
  · simp only [hq, if_false, Bool.false_eq_true]
    obtain ⟨u', v', e', k'⟩ := placeStop_only sd (stopFrame ((cabinetNode s).getD 0) sd)
      { s with head := { s.head with queue := s.head.queue.filter fun f => !isStart sd f } }
    obtain ⟨x, a, b, e2, k2, ha, hb⟩ := takeHead_only
      (placeStop sd (stopFrame ((cabinetNode s).getD 0) sd)
        { s with head := { s.head with queue := s.head.queue.filter fun f => !isStart sd f } })
    refine ⟨x, a, b, (s.roller sd).outstanding, ?_, ?_, ?_, .inl rfl, fun h => (takeHead_leaves e2 h).2.2⟩
    · refine e2.trans ?_
      rw [e']
      cases sd <;> rfl
    · have i := takeHead_leaves e2
      rw [e'] at k2 i
      exact ⟨k2.rx, k2.fifo, fun h => k2.fits (Nat.le_trans hf h), fun _ h => ⟨(i h).1, (i h).2.1⟩⟩
    · intro hp p q hp1 hq1
      rw [e'] at ha hb
      have hk := k' hp
      rcases ha with ha | ha
      · rcases hb with hb | hb
        · exact hk p q (ha ▸ hp1) (hb ▸ hq1)
        · simp [hb] at hq1
      · simp [ha] at hp1

/-- The flag of an offered STOP tells whether a START of the side waited (R9). -/
theorem offerStop_flag (sd : Side) (s : State) : (offerStop sd s).2 = startQueued sd s := rfl

/-! ### Sync, guidance, batches -/

/-- An entry offered to the Sync Log: what the log is after it (R179). -/
theorem logSync_eq (code : SyncCode) (source : SyncSource) (s : State) :
    logSync code source s = ({ s with syncLog := s.logged code source }, decide (s.syncLog.entries.length < 32)) := by
  unfold logSync State.logged
  by_cases h : s.syncLog.entries.length < 32
  · simp [h, logCap]
  · simp [h, logCap]

theorem logged_fits (s : State) (code : SyncCode) (source : SyncSource) :
    (s.syncLog.entries.length ≤ 32 → (s.logged code source).entries.length ≤ 32) ∧
      (s.syncLog.overflow ≤ 65535 → (s.logged code source).overflow ≤ 65535) := by
  unfold State.logged
  split
  · exact ⟨fun _ => by simp only [List.length_append, List.length_singleton]; omega, id⟩
  · exact ⟨id, fun _ => Nat.min_le_right _ _⟩

theorem setFirstFlags_fold_only (l : List Quantity) (s : State) :
    ∃ qs, l.foldl (fun t q =>
        if (mapped t q).isSome then t.setQty q { t.qty q with firstSample := true } else t) s =
        { s with quantities := qs } ∧ qs.length = s.quantities.length := by
  induction l generalizing s with
  | nil => exact ⟨_, rfl, rfl⟩
  | cons q rest ih =>
    rw [List.foldl_cons]
    split
    · obtain ⟨qs, e, k⟩ := ih (s.setQty q { s.qty q with firstSample := true })
      exact ⟨qs, e, k.trans (setQty_length _ _ _)⟩
    · exact ih s

theorem setFirstFlags_only (s : State) :
    ∃ qs, setFirstFlags s = { s with quantities := qs } ∧ qs.length = s.quantities.length :=
  setFirstFlags_fold_only _ s

theorem issueSync_only (code : SyncCode) (source : SyncSource) (s : State) :
    ∃ x u v n qs, (issueSync code source s).1 =
        { s with head := x, urgent := u, headPlace := v, quantities := qs, syncLog := s.logged code source,
                 live := overrunCount s.live .head n } ∧
      KeepsPort .head s.head x ∧ (u = s.urgent ∨ u = none) ∧ (v = s.headPlace ∨ v = none) ∧
      qs.length = s.quantities.length := by
  unfold issueSync
  rw [logSync_eq]
  dsimp only
  split
  · obtain ⟨qs, e, k⟩ := setFirstFlags_only { s with syncLog := s.logged code source }
    rw [e]
    obtain ⟨x, u, v, n, e2, k2, hu, hv⟩ := offerCounted_head_only (originate 63 kindSync (be8 (syncCode code)))
      { s with syncLog := s.logged code source, quantities := qs }
    exact ⟨x, u, v, n, qs, e2, k2, hu, hv, k⟩
  · obtain ⟨x, u, v, n, e2, k2, hu, hv⟩ := offerCounted_head_only (originate 63 kindSync (be8 (syncCode code)))
      { s with syncLog := s.logged code source }
    exact ⟨x, u, v, n, s.quantities, e2, k2, hu, hv, rfl⟩

theorem offerGuide_only (g : GuideMessage) (s : State) :
    ∃ x u v m, offerGuide g s =
        { s with head := x, urgent := u, headPlace := v, engine := { s.engine with pendingGuide := m } } ∧
      KeepsPort .head s.head x ∧ (u = s.urgent ∨ u = none) ∧ (v = s.headPlace ∨ v = none) ∧
      (m = none ∨ m = some g) := by
  unfold offerGuide
  obtain ⟨x, u, v, e, k, hu, hv⟩ := offer_head_only (guideFrame g s) s
  dsimp only
  rw [e]
  refine ⟨x, u, v, _, rfl, k, hu, hv, ?_⟩
  split
  · exact .inl rfl
  · exact .inr rfl

theorem flushBatch_only (q : Quantity) (s : State) :
    ∃ x qs n, flushBatch q s =
        { s with station := x, quantities := qs, live := { s.live with droppedBatches := n } } ∧
      KeepsPort .station s.station x ∧
      (qs = s.quantities ∧ (s.qty q).batch.values = [] ∨
        qs = s.quantities.set (quantityCode q) { s.qty q with batch := Batch.empty }) := by
  unfold flushBatch
  dsimp only
  split
  next h => exact ⟨_, _, _, rfl, KeepsPort.refl _ _, .inl ⟨rfl, List.isEmpty_iff.mp h⟩⟩
  · obtain ⟨x, e, k⟩ := offer_station_only (batchFrame q (s.qty q).batch)
      (s.setQty q { s.qty q with batch := Batch.empty })
    rw [e]
    split
    · exact ⟨x, _, s.live.droppedBatches, rfl, k, .inr rfl⟩
    · exact ⟨x, _, _, rfl, k, .inr rfl⟩

theorem flushBatches_fold_only (l : List Quantity) (s : State) :
    ∃ x qs n, l.foldl (fun t q => flushBatch q t) s =
        { s with station := x, quantities := qs, live := { s.live with droppedBatches := n } } ∧
      KeepsPort .station s.station x ∧ qs.length = s.quantities.length := by
  induction l generalizing s with
  | nil => exact ⟨_, _, _, rfl, KeepsPort.refl _ _, rfl⟩
  | cons q rest ih =>
    rw [List.foldl_cons]
    obtain ⟨x, qs, n, e, k, hq⟩ := flushBatch_only q s
    rw [e]
    obtain ⟨x', qs', n', e', k', hq'⟩ := ih
      { s with station := x, quantities := qs, live := { s.live with droppedBatches := n } }
    refine ⟨x', qs', n', e', k.trans k', hq'.trans ?_⟩
    rcases hq with ⟨h, _⟩ | h <;> simp [h]

/-- Flushing every batch touches the station port, the quantities' batches and the dropped-batch count (R42, R44). -/
theorem flushBatches_only (s : State) :
    ∃ x qs n, flushBatches s =
        { s with station := x, quantities := qs, live := { s.live with droppedBatches := n } } ∧
      KeepsPort .station s.station x ∧ qs.length = s.quantities.length := flushBatches_fold_only _ s

end Sys2Proof.Machine
end

