-- ==== Sys2Proof/Laws/Along.lean ====
section
/-! SUPPORT. What no block's work within an event changes: the receivers and FIFOs, lane time, the shadow bank,
the drive cabinet's flags, the start histories, and the bounds and promises of Safety.lean. `Along s t` says that
t can follow s within one event; each operation has one lemma. -/

namespace Sys2Proof.Machine

/-- The bounds of the certificate queue, the Sync Log and the quantities. -/
def storesFit (s : State) : Prop :=
  s.certs.queue.length ≤ 4 ∧ s.syncLog.entries.length ≤ 32 ∧ s.syncLog.overflow ≤ 65535 ∧ s.quantities.length = 16

/-- What the work of one event keeps between two states of it. -/
structure Along (s t : State) : Prop where
  head : KeepsPort .head s.head t.head
  station : KeepsPort .station s.station t.station
  places : placesDiffer s → placesDiffer t
  cadA : t.cadA = s.cadA ∨ t.cadA = voidTick s.cadA
  cadB : t.cadB = s.cadB ∨ t.cadB = voidTick s.cadB
  stores : storesFit s → storesFit t
  history : ∀ sd, (t.roller sd).history = (s.roller sd).history
  flags : ∀ sd, (t.roller sd).contactor = (s.roller sd).contactor ∧ (t.roller sd).overtemp = (s.roller sd).overtemp
  estop : t.rollers.estop = s.rollers.estop
  safe : estopSafe s → estopSafe t
  time : t.clock.laneTime = s.clock.laneTime ∧ t.clock.micro = s.clock.micro ∧ t.clock.msDue = s.clock.msDue
  agree : timesAgree s → timesAgree t
  shadow : t.shadow = s.shadow
  latched : t.latched = s.latched ∧ t.latchTime = s.latchTime
  pending : t.pending = s.pending
  wakes : idleWaitsForNothing s → idleWaitsForNothing t

theorem voidTick_voidTick (x : CadenceState) : voidTick (voidTick x) = voidTick x := by
  unfold voidTick
  split
  next h => simp only [h]; cases x.openTick <;> rfl
  next h => simp only

theorem Along.refl (s : State) : Along s s :=
  ⟨KeepsPort.refl _ _, KeepsPort.refl _ _, id, .inl rfl, .inl rfl, id, fun _ => rfl, fun _ => ⟨rfl, rfl⟩, rfl, id,
    ⟨rfl, rfl, rfl⟩, id, rfl, ⟨rfl, rfl⟩, rfl, id⟩

theorem voided_trans {a b c : CadenceState} (h : b = a ∨ b = voidTick a) (k : c = b ∨ c = voidTick b) :
    c = a ∨ c = voidTick a := by
  rcases h with rfl | rfl <;> rcases k with rfl | rfl
  · exact .inl rfl
  · exact .inr rfl
  · exact .inr rfl
  · exact .inr (voidTick_voidTick _)

theorem Along.trans {s t u : State} (h : Along s t) (k : Along t u) : Along s u where
  head := h.head.trans k.head
  station := h.station.trans k.station
  places := fun x => k.places (h.places x)
  cadA := voided_trans h.cadA k.cadA
  cadB := voided_trans h.cadB k.cadB
  stores := fun x => k.stores (h.stores x)
  history := fun sd => (k.history sd).trans (h.history sd)
  flags := fun sd => ⟨(k.flags sd).1.trans (h.flags sd).1, (k.flags sd).2.trans (h.flags sd).2⟩
  estop := k.estop.trans h.estop
  safe := fun x => k.safe (h.safe x)
  time := ⟨k.time.1.trans h.time.1, k.time.2.1.trans h.time.2.1, k.time.2.2.trans h.time.2.2⟩
  agree := fun x => k.agree (h.agree x)
  shadow := k.shadow.trans h.shadow
  latched := ⟨k.latched.1.trans h.latched.1, k.latched.2.trans h.latched.2⟩
  pending := k.pending.trans h.pending
  wakes := fun x => k.wakes (h.wakes x)

theorem Along.ite {s t u : State} {p : Prop} [Decidable p] (h : Along s t) (k : Along s u) :
    Along s (if p then t else u) := by split <;> assumption

/-! ### Kinds of update -/

/-- An update of parts that no promise looks at. -/
theorem Along.inert (s : State) (setA setB : TickSet) (working : Bank) (banks : BankControl) (lane : LaneControl)
    (engine : EngineState) (eval : Evaluator) (plate : PlateUnit) (live : Counters) :
    Along s { s with setA := setA, setB := setB, working := working, banks := banks, lane := lane,
                     engine := engine, eval := eval, plate := plate, live := live } :=
  ⟨KeepsPort.refl _ _, KeepsPort.refl _ _, id, .inl rfl, .inl rfl, id, fun _ => rfl, fun _ => ⟨rfl, rfl⟩, rfl, id,
    ⟨rfl, rfl, rfl⟩, id, rfl, ⟨rfl, rfl⟩, rfl, id⟩

theorem Along.toStation {s : State} {x : PortState} (l : Counters) (k : KeepsPort .station s.station x) :
    Along s { s with station := x, live := l } :=
  ⟨KeepsPort.refl _ _, k, id, .inl rfl, .inl rfl, id, fun _ => rfl, fun _ => ⟨rfl, rfl⟩, rfl, id,
    ⟨rfl, rfl, rfl⟩, id, rfl, ⟨rfl, rfl⟩, rfl, fun h p => by
      cases p
      · exact h .head
      · exact fun e => (k.wakes (h .station) e).2⟩

theorem placesDiffer_taken {s t : State} (hu : t.urgent = s.urgent ∨ t.urgent = none)
    (hv : t.headPlace = s.headPlace ∨ t.headPlace = none) (h : placesDiffer s) : placesDiffer t := by
  intro p q hp hq
  rcases hu with hu | hu
  · rcases hv with hv | hv
    · exact h p q (hu ▸ hp) (hv ▸ hq)
    · rw [hv] at hq; cases hq
  · rw [hu] at hp; cases hp

theorem Along.toHead {s : State} {x : PortState} {u v : Option WaitingStop} (l : Counters) (e : EngineState)
    (k : KeepsPort .head s.head x) (hu : u = s.urgent ∨ u = none) (hv : v = s.headPlace ∨ v = none) :
    Along s { s with head := x, urgent := u, headPlace := v, live := l, engine := e } :=
  ⟨k, KeepsPort.refl _ _, placesDiffer_taken hu hv,
    .inl rfl, .inl rfl, id, fun _ => rfl, fun _ => ⟨rfl, rfl⟩, rfl, id, ⟨rfl, rfl, rfl⟩, id, rfl, ⟨rfl, rfl⟩, rfl,
    fun h p => by
      cases p
      · intro i
        have w := k.wakes (fun z => (h .head z).1) i
        have y := (h .head w.1).2
        exact ⟨w.2, hu.elim (fun g => g.trans y.1) id, hv.elim (fun g => g.trans y.2) id⟩
      · exact h .station⟩

theorem Along.toQuantities {s : State} {qs : List QuantityState} (l : Counters)
    (k : qs.length = s.quantities.length) : Along s { s with quantities := qs, live := l } :=
  ⟨KeepsPort.refl _ _, KeepsPort.refl _ _, id, .inl rfl, .inl rfl, fun h => ⟨h.1, h.2.1, h.2.2.1, k.trans h.2.2.2⟩,
    fun _ => rfl, fun _ => ⟨rfl, rfl⟩, rfl, id, ⟨rfl, rfl, rfl⟩, id, rfl, ⟨rfl, rfl⟩, rfl, id⟩

theorem Along.toLog {s : State} {l : SyncLog} (a : s.syncLog.entries.length ≤ 32 → l.entries.length ≤ 32)
    (b : s.syncLog.overflow ≤ 65535 → l.overflow ≤ 65535) : Along s { s with syncLog := l } :=
  ⟨KeepsPort.refl _ _, KeepsPort.refl _ _, id, .inl rfl, .inl rfl,
    fun h => ⟨h.1, a h.2.1, b h.2.2.1, h.2.2.2⟩,
    fun _ => rfl, fun _ => ⟨rfl, rfl⟩, rfl, id, ⟨rfl, rfl, rfl⟩, id, rfl, ⟨rfl, rfl⟩, rfl, id⟩

theorem Along.toCerts {s : State} {x : CertState} (k : s.certs.queue.length ≤ 4 → x.queue.length ≤ 4) :
    Along s { s with certs := x } :=
  ⟨KeepsPort.refl _ _, KeepsPort.refl _ _, id, .inl rfl, .inl rfl, fun h => ⟨k h.1, h.2⟩,
    fun _ => rfl, fun _ => ⟨rfl, rfl⟩, rfl, id, ⟨rfl, rfl, rfl⟩, id, rfl, ⟨rfl, rfl⟩, rfl, id⟩

/-- The record replaced by one with the same open lane time. -/
theorem Along.toVehicle {s : State} {x : Option VehicleRecord}
    (k : ∀ w, x = some w → ∃ v, s.vehicle = some v ∧ w.openTime = v.openTime) :
    Along s { s with vehicle := x } :=
  ⟨KeepsPort.refl _ _, KeepsPort.refl _ _, id, .inl rfl, .inl rfl, id,
    fun _ => rfl, fun _ => ⟨rfl, rfl⟩, rfl, id, ⟨rfl, rfl, rfl⟩,
    fun h w hw => by obtain ⟨v, hv, e⟩ := k w hw; rw [e]; exact h v hv, rfl, ⟨rfl, rfl⟩, rfl, id⟩

/-- A side replaced by one with the same history and flags that is not newly started while the flag is set. -/
theorem Along.toRoller {s : State} {sd : Side} {r : RollerSide} (hh : r.history = (s.roller sd).history)
    (hc : r.contactor = (s.roller sd).contactor) (ho : r.overtemp = (s.roller sd).overtemp)
    (hs : s.rollers.estop = true → (s.roller sd).still = true → r.still = true) : Along s (s.setRoller sd r) where
  head := KeepsPort.refl _ _
  station := KeepsPort.refl _ _
  places := id
  cadA := .inl rfl
  cadB := .inl rfl
  stores := id
  history := fun sd' => by cases sd <;> cases sd' <;> first | exact hh | rfl
  flags := fun sd' => by cases sd <;> cases sd' <;> first | exact ⟨hc, ho⟩ | exact ⟨rfl, rfl⟩
  estop := rfl
  safe := fun h e => by
    cases sd
    · exact ⟨hs e (h e).1, (h e).2⟩
    · exact ⟨(h e).1, hs e (h e).2⟩
  time := ⟨rfl, rfl, rfl⟩
  agree := id
  shadow := rfl
  latched := ⟨rfl, rfl⟩
  pending := rfl
  wakes := id

/-- A side's update that leaves its state. -/
theorem Along.sameState {s : State} {sd : Side} {r : RollerSide} (hh : r.history = (s.roller sd).history)
    (hc : r.contactor = (s.roller sd).contactor) (ho : r.overtemp = (s.roller sd).overtemp)
    (hs : r.state = (s.roller sd).state) : Along s (s.setRoller sd r) :=
  Along.toRoller hh hc ho fun _ h => by unfold RollerSide.still at *; rw [hs]; exact h

/-! ### Ports -/

theorem setEngine_along (f : EngineState → EngineState) (s : State) : Along s (s.setEngine f) :=
  Along.inert s _ _ _ _ _ _ _ _ _
theorem setLane_along (f : LaneControl → LaneControl) (s : State) : Along s (s.setLane f) :=
  Along.inert s _ _ _ _ _ _ _ _ _
theorem count_along (f : Counters → Counters) (s : State) : Along s (s.count f) := Along.inert s _ _ _ _ _ _ _ _ _
theorem countPort_along (p : Port) (f : PortCounts → PortCounts) (s : State) : Along s (s.countPort p f) := by
  rw [countPort_eq]; exact Along.inert s _ _ _ _ _ _ _ _ _
theorem countQty_along (q : Quantity) (f : QuantityCounts → QuantityCounts) (s : State) : Along s (s.countQty q f) :=
  count_along _ s
theorem setEval_along (sd : Side) (x : EvalSide) (s : State) : Along s (s.setEval sd x) :=
  Along.inert s _ _ _ _ _ _ _ _ _
theorem resetEval_along (s : State) : Along s (resetEval s) := Along.inert s _ _ _ _ _ _ _ _ _
theorem setQty_along (q : Quantity) (x : QuantityState) (s : State) : Along s (s.setQty q x) :=
  Along.toQuantities _ (setQty_length _ _ _)
theorem setLastSet_along (c : Cadence) (x : TickSet) (s : State) : Along s (s.setLastSet c x) := by
  cases c <;> exact Along.inert s _ _ _ _ _ _ _ _ _

theorem takeHead_along (s : State) : Along s (takeHead s) := by
  obtain ⟨x, u, v, e, k, hu, hv⟩ := takeHead_only s
  rw [e]; exact Along.toHead _ _ k hu hv
theorem takeStation_along (s : State) : Along s (takeStation s) := by
  obtain ⟨x, e, k⟩ := takeStation_only s
  rw [e]; exact Along.toStation _ k
theorem offer_along (p : Port) (f : Frame) (s : State) : Along s (offer p f s).1 := by
  cases p
  · obtain ⟨x, u, v, e, k, hu, hv⟩ := offer_head_only f s
    rw [e]; exact Along.toHead _ _ k hu hv
  · obtain ⟨x, e, k⟩ := offer_station_only f s
    rw [e]; exact Along.toStation _ k
theorem offerCounted_along (p : Port) (f : Frame) (s : State) : Along s (offerCounted p f s) := by
  unfold offerCounted
  exact Along.ite (offer_along p f s) ((offer_along p f s).trans (countPort_along _ _ _))
theorem notice_along (c : Byte) (l : List Byte) (s : State) : Along s (notice c l s) := offerCounted_along _ _ s
theorem reply_along (n : Nat) (a b : Byte) (l : List Byte) (s : State) : Along s (reply n a b l s) := by
  unfold reply
  exact Along.ite (offer_along _ _ s) ((offer_along _ _ s).trans (count_along _ _))
theorem staleNotice_along (q : Quantity) (c : StaleCondition) (b : Bool) (s : State) :
    Along s (staleNotice q c b s) := notice_along _ _ s
theorem policyNotice_along (sd : Side) (o : Origin) (a : PolicyAction) (r : Option PolicyReason) (s : State) :
    Along s (policyNotice sd o a r s) := notice_along _ _ s
theorem syncNotice_along (c : SyncCode) (o : SyncSource) (b : Bool) (s : State) :
    Along s (syncNotice c o b s) := notice_along _ _ s
theorem offerStop_along (sd : Side) (s : State) : Along s (offerStop sd s).1 := by
  obtain ⟨x, u, v, b, e, k, hp, -, hi⟩ := offerStop_only sd s
  rw [e]
  have h : Along s (s.setRoller sd { s.roller sd with outstanding := b }) := Along.sameState rfl rfl rfl rfl
  exact ⟨k, h.station, hp, h.cadA, h.cadB, h.stores, h.history, h.flags, h.estop, h.safe, h.time, h.agree,
    h.shadow, h.latched, h.pending, fun w p => by
      cases p
      · exact fun i => ⟨(k.wakes (fun z => (w .head z).1) i).2, hi i⟩
      · exact w .station⟩
theorem logSync_along (c : SyncCode) (o : SyncSource) (s : State) : Along s (logSync c o s).1 := by
  rw [logSync_eq]
  exact Along.toLog (logged_fits s c o).1 (logged_fits s c o).2
theorem setFirstFlags_along (s : State) : Along s (setFirstFlags s) := by
  obtain ⟨qs, e, k⟩ := setFirstFlags_only s
  rw [e]; exact Along.toQuantities _ k
theorem issueSync_along (c : SyncCode) (o : SyncSource) (s : State) : Along s (issueSync c o s).1 := by
  unfold issueSync
  refine Along.trans ?_ (offerCounted_along _ _ _)
  exact Along.ite ((logSync_along c o s).trans (setFirstFlags_along _)) (logSync_along c o s)
theorem syncBroadcast_along (c : SyncCode) (o : SyncSource) (s : State) : Along s (syncBroadcast c o s) :=
  (issueSync_along c o s).trans (syncNotice_along _ _ _ _)
theorem offerGuide_along (g : GuideMessage) (s : State) : Along s (offerGuide g s) := by
  obtain ⟨x, u, v, m, e, k, hu, hv, -⟩ := offerGuide_only g s
  rw [e]; exact Along.toHead _ _ k hu hv

/-- A fold of operations that each keep what an event keeps. -/
theorem foldl_along {α : Type} {f : State → α → State} (h : ∀ s a, Along s (f s a)) (l : List α) (s : State) :
    Along s (l.foldl f s) := by
  induction l generalizing s with
  | nil => exact Along.refl s
  | cons a rest ih => exact (h s a).trans (ih _)

/-! ### Conditioner -/

theorem flushBatch_along (q : Quantity) (s : State) : Along s (flushBatch q s) := by
  unfold flushBatch
  refine Along.ite (Along.refl s) ?_
  have h := (setQty_along q { s.qty q with batch := Batch.empty } s).trans
    (offer_along .station (batchFrame q (s.qty q).batch) _)
  exact Along.ite h (h.trans (count_along _ _))
theorem flushBatches_along (s : State) : Along s (flushBatches s) := foldl_along (fun t q => flushBatch_along q t) _ s
theorem discardBatches_along (s : State) : Along s (discardBatches s) := Along.toQuantities _ (List.length_map _)
theorem addToBatch_along (q : Quantity) (n : Word16) (v : Int × Bool) (s : State) : Along s (addToBatch q n v s) := by
  unfold addToBatch
  exact Along.ite ((setQty_along _ _ s).trans (flushBatch_along _ _)) (setQty_along _ _ s)
theorem buildBatch_along (c : Cadence) (n : Word16) (q : Quantity) (s : State) : Along s (buildBatch c n q s) := by
  unfold buildBatch
  split
  · exact Along.refl s
  · refine Along.ite (Along.refl s) ?_
    dsimp only
    refine Along.ite (setQty_along _ _ s) ?_
    split
    · exact (setQty_along _ _ s).trans (flushBatch_along _ _)
    · exact (setQty_along _ _ s).trans (addToBatch_along _ _ _ _)
theorem buildBatches_along (c : Cadence) (n : Word16) (s : State) : Along s (buildBatches c n s) :=
  foldl_along (fun t q => buildBatch_along c n q t) _ s
theorem takeValue_along (node : Nat) (n : Word16) (ch : Nat) (raw : Int) (s : State) :
    Along s (takeValue node n ch raw s).1 := by
  unfold takeValue
  split
  · exact Along.refl s
  · dsimp only
    split
    · exact countQty_along _ _ s
    · repeat' split
      all_goals first | exact countQty_along _ _ s | exact setQty_along _ _ s
theorem takeValues_along (node : Nat) (n : Word16) (i : Nat) (l : List Int) (s : State) :
    Along s (takeValues node n i l s).1 := by
  induction l generalizing i s with
  | nil => exact Along.refl s
  | cons a rest ih => exact (takeValue_along _ _ _ _ s).trans (ih _ _)
theorem takeSample_along (node : Nat) (n : Word16) (l : List Int) (s : State) : Along s (takeSample node n l s) := by
  unfold takeSample
  exact Along.ite (takeValues_along _ _ _ _ s) ((takeValues_along _ _ _ _ s).trans (count_along _ _))
theorem tareQuantity_along (q : Quantity) (s : State) : Along s (tareQuantity q s) := by
  unfold tareQuantity
  repeat' split
  all_goals first | exact Along.refl s | exact staleNotice_along _ _ _ s | skip
  all_goals dsimp only
  all_goals split
  all_goals first | exact staleNotice_along _ _ _ s | skip
  exact Along.ite (staleNotice_along _ _ _ s) (setQty_along _ _ s)
theorem takeTare_along (s : State) : Along s (takeTare s) := foldl_along (fun t q => tareQuantity_along q t) _ s
theorem closeQuantity_along (c : Cadence) (o : OpenTick) (q : Quantity) (s : State) :
    Along s (closeQuantity c o q s).1 := by
  unfold closeQuantity
  split
  · exact Along.refl s
  · split
    · exact Along.refl s
    · dsimp only
      have h := fun x f => (setQty_along q x s).trans (countQty_along q f _)
      exact Along.ite ((h _ _).trans (staleNotice_along _ _ _ _))
        (Along.ite ((h _ _).trans (staleNotice_along _ _ _ _)) (h _ _))

/-! ### Table banks -/

theorem clearAll_along (s : State) :
    Along s { s with quantities := s.quantities.map clearQuantity, cadA := voidTick s.cadA, cadB := voidTick s.cadB } :=
  ⟨KeepsPort.refl _ _, KeepsPort.refl _ _, id, .inr rfl, .inr rfl,
    fun h => ⟨h.1, h.2.1, h.2.2.1, (List.length_map _).trans h.2.2.2⟩, fun _ => rfl, fun _ => ⟨rfl, rfl⟩, rfl, id,
    ⟨rfl, rfl, rfl⟩, id, rfl, ⟨rfl, rfl⟩, rfl, id⟩
theorem clearConditioner_along (s : State) : Along s (clearConditioner s) :=
  (flushBatches_along s).trans (clearAll_along (flushBatches s))
theorem clearStale_along (q : Quantity) (s : State) : Along s (clearStale q s) := by
  unfold clearStale
  exact Along.ite ((setQty_along _ _ s).trans (staleNotice_along _ _ _ _)) (Along.refl s)
theorem clearStales_along (s : State) : Along s (clearStales s) := foldl_along (fun t q => clearStale_along q t) _ s
theorem copyShadow_along (s : State) : Along s (copyShadow s) := by
  have a : Along s (s.setRoller .left (forgetTest (s.roller .left))) := Along.sameState rfl rfl rfl rfl
  have b : Along (s.setRoller .left (forgetTest (s.roller .left)))
      ((s.setRoller .left (forgetTest (s.roller .left))).setRoller .right (forgetTest (s.roller .right))) :=
    Along.sameState rfl rfl rfl rfl
  exact (a.trans b).trans (Along.inert _ _ _ _ _ _ _ _ _ _)
theorem applySwitch_along {answer : State → State} (h : ∀ s, Along s (answer s)) (o : SwitchOccasion) (s : State) :
    Along s (applySwitch o answer s) :=
  ((((clearConditioner_along s).trans (copyShadow_along _)).trans (clearStales_along _)).trans (h _)).trans
    (notice_along _ _ _)
theorem applyPending_along (o : SwitchOccasion) (s : State) : Along s (applyPending o s) :=
  Along.ite (applySwitch_along Along.refl o s) (Along.refl s)

/-! ### Roller supervision -/

theorem stopAs_still {r : RollerSide} {st : RollerState} (h : st = .stopped ∨ st = .coasting) :
    (r.stopAs st).still = true := by rcases h with rfl | rfl <;> rfl

theorem stop_along {st : RollerState} (h : st = .stopped ∨ st = .coasting) (sd : Side) (s : State) :
    Along s (s.setRoller sd ((s.roller sd).stopAs st)) := Along.toRoller rfl rfl rfl fun _ _ => stopAs_still h

theorem watchOff_along (sd : Side) (s : State) : Along s (s.setRoller sd (s.roller sd).watchOff) :=
  Along.sameState rfl rfl rfl rfl
theorem watchesOff_along (s : State) : Along s (watchesOff s) :=
  (watchOff_along .left s).trans (watchOff_along .right _)

theorem cancelHeld_along {st : RollerState} (h : st = .stopped ∨ st = .coasting) (sd : Side) (why : PolicyReason)
    (s : State) : Along s (cancelHeld sd why st s) := by
  have a : Along s (s.setRoller sd ((s.roller sd).unheld st)) :=
    Along.toRoller rfl rfl rfl fun _ _ => by rcases h with rfl | rfl <;> rfl
  exact a.trans (policyNotice_along _ _ _ _ _)

/-- A START offered: only without an emergency stop, or for a side already started or held. -/
theorem offerStart_along (o : Origin) {sd : Side} {s : State}
    (h : s.rollers.estop = true → (s.roller sd).still = false) : Along s (offerStart o sd s).1 := by
  have a : Along s (s.setRoller sd
      { (s.roller sd).unheld .spinningUp with outstanding := true, sendTime := none }) :=
    Along.toRoller rfl rfl rfl fun e k => by rw [h e] at k; cases k
  unfold offerStart
  dsimp only
  have b := a.trans (offer_along .head (startFrame ((cabinetNode s).getD 0) sd) _)
  split
  · exact b
  · refine b.trans ?_
    have c := fun t : State => (Along.toRoller (s := t) (sd := sd)
      (r := { (t.roller sd).unheld .stopped with outstanding := false, sendTime := none }) rfl rfl rfl
      fun _ _ => rfl)
    exact Along.ite ((c _).trans (policyNotice_along _ _ _ _ _)) (c _)

theorem judgeStart_along (o : Origin) (sd : Side) (s : State) : Along s (judgeStart o sd s).1 := by
  unfold judgeStart
  split
  · split
    · exact policyNotice_along _ _ _ _ s
    · exact Along.refl s
  next h =>
    have he : s.rollers.estop = false := by
      cases e : s.rollers.estop
      · rfl
      · simp [refusal, e] at h
    split
    · exact offerStart_along o fun e => by rw [he] at e; cases e
    · have a : Along s (s.setRoller sd { s.roller sd with
          state := .held, held := some { origin := o, since := s.now }, testDue := false }) :=
        Along.toRoller rfl rfl rfl fun e => by rw [he] at e; cases e
      exact a.trans (policyNotice_along _ _ _ _ _)

theorem testHeld_along {sd : Side} {s : State} (h : (s.roller sd).state = .held) : Along s (testHeld sd s).1 := by
  unfold testHeld
  dsimp only
  have a : Along s (s.setRoller sd { s.roller sd with testDue := false }) := Along.sameState rfl rfl rfl rfl
  split
  · exact Along.refl s
  · split
    · exact a
    · split
      · refine a.trans ((policyNotice_along _ _ _ _ _).trans (offerStart_along _ fun _ => ?_))
        obtain ⟨x, n, e, -⟩ := policyNotice_only sd (by assumption : HeldStart).origin .released none
          (s.setRoller sd { s.roller sd with testDue := false })
        rw [e]
        show (State.roller (s.setRoller sd { s.roller sd with testDue := false }) sd).still = false
        rw [roller_setRoller]
        simp [RollerSide.still, h]
      · exact a.trans (cancelHeld_along (.inl rfl) _ _ _)

theorem stopSpinUp_along (sd : Side) (s : State) : Along s (stopSpinUp sd s).1 := by
  unfold stopSpinUp
  refine (offerStop_along sd s).trans (stop_along ?_ sd _)
  cases (offerStop sd s).2 <;> simp
theorem stopRunning_along (sd : Side) (s : State) : Along s (stopRunning sd s) :=
  (offerStop_along sd s).trans (stop_along (.inr rfl) sd _)
theorem laneStop_along (sd : Side) (s : State) : Along s (laneStop sd s).1 := by
  unfold laneStop
  split
  · exact Along.refl s
  · exact cancelHeld_along (.inl rfl) _ _ s
  · exact stopSpinUp_along sd s
  · exact stopRunning_along sd s
  · exact offerStop_along sd s
theorem laneStopBoth_along (s : State) : Along s (laneStopBoth s).1 :=
  (laneStop_along .left s).trans (laneStop_along .right _)
theorem stationStop_along (sd : Side) (s : State) : Along s (stationStop sd s).1 := by
  unfold stationStop
  split
  · exact offerStop_along sd s
  · exact offerStop_along sd s
  · exact (offerStop_along sd s).trans (cancelHeld_along (.inl rfl) _ _ _)
  · exact stopSpinUp_along sd s
  · exact stopRunning_along sd s
theorem overtempHeld_along (sd : Side) (s : State) : Along s (overtempHeld sd s).1 := by
  unfold overtempHeld
  split
  · exact cancelHeld_along (.inl rfl) _ _ s
  · exact Along.refl s
theorem estopSide_along (sd : Side) (b : Bool) (s : State) : Along s (estopSide sd b s) := by
  unfold estopSide
  split
  · exact (watchOff_along sd s).trans (cancelHeld_along (.inl rfl) _ _ _)
  · exact stop_along (by cases b <;> simp) sd s
  · exact stop_along (.inr rfl) sd s
  · exact watchOff_along sd s
  · exact watchOff_along sd s
theorem runningClose_along (sd : Side) (s : State) : Along s (runningClose sd s).1 := by
  unfold runningClose
  dsimp only
  have a : Along s (s.setRoller sd { s.roller sd with slip := newSlip sd s }) := Along.sameState rfl rfl rfl rfl
  split
  · exact a
  · split
    · exact a.trans (stopRunning_along sd _)
    · refine a.trans ?_
      have b := fun (t : State) w => (Along.sameState (s := t) (sd := sd) (r := { t.roller sd with watch := w })
        rfl rfl rfl rfl)
      split
      · exact (b _ _).trans (Along.sameState rfl rfl rfl rfl)
      · exact b _ _
theorem sideClose_along (sd : Side) (s : State) : Along s (sideClose sd s).1 := by
  unfold sideClose
  dsimp only
  split
  · exact Along.refl s
  · exact Along.refl s
  next h =>
    split
    · exact Along.refl s
    · split
      · exact Along.toRoller rfl rfl rfl fun _ k => by simp [RollerSide.still, h] at k
      · exact Along.refl s
  · split
    · exact Along.toRoller rfl rfl rfl fun _ _ => rfl
    · exact Along.refl s
  · exact runningClose_along sd s
theorem spinUpExpiry_along (sd : Side) (s : State) : Along s (spinUpExpiry sd s).1 :=
  (stopSpinUp_along sd s).trans (Along.toRoller rfl rfl rfl fun _ _ => rfl)

/-! ### Evaluator and plate -/

theorem reportEnded_along (sd : Side) (s : State) : Along s (reportEnded sd s) :=
  Along.ite (watchOff_along sd s) (Along.refl s)
theorem measureClose_along (x : Pair SideTrace) (s : State) : Along s (measureClose x s) :=
  ((Along.inert s _ _ _ _ _ _ _ _ _).trans (reportEnded_along .left _)).trans (reportEnded_along .right _)
theorem settleClose_along (s : State) : Along s (settleClose s).1 := by
  unfold settleClose; split <;> exact Along.inert s _ _ _ _ _ _ _ _ _
theorem endStopped_along (sd : Side) (s : State) : Along s (endStopped sd s) :=
  Along.ite (setEval_along _ _ s) (Along.refl s)
theorem closeSides_along (s : State) : Along s (closeSides s) := Along.inert s _ _ _ _ _ _ _ _ _

theorem mapVehicle_along {f : VehicleRecord → VehicleRecord} (h : ∀ v, (f v).openTime = v.openTime) (s : State) :
    Along s { s with vehicle := s.vehicle.map f } :=
  Along.toVehicle fun w hw => by
    cases e : s.vehicle with
    | none => rw [e] at hw; cases hw
    | some v => rw [e] at hw; cases hw; exact ⟨v, rfl, h v⟩
theorem setAxle_along (k : Nat) (f : AxleEntry → AxleEntry) (s : State) : Along s (s.setAxle k f) :=
  mapVehicle_along (f := fun v => { v with axles := v.axles.modify (k - 1) f }) (fun _ => rfl) s
theorem evaluateVehicle_along (s : State) : Along s (evaluateVehicle s) := by
  unfold evaluateVehicle
  split
  · exact Along.refl s
  next v h =>
    exact (Along.toVehicle fun w hw => by cases hw; exact ⟨v, h, rfl⟩).trans (notice_along _ _ _)
theorem attributeCrossing_along (n : Nat) (c : Crossing) (b : Bool) (v : VehicleRecord) {s : State}
    (h : s.vehicle = some v) : Along s (attributeCrossing n c b v s).1 := by
  unfold attributeCrossing
  split
  · exact ((Along.inert s _ _ _ _ _ _ _ _ _).trans (setAxle_along _ _ _)).trans (notice_along _ _ _)
  · exact (Along.toVehicle fun w hw => by cases hw; exact ⟨v, h, rfl⟩).trans (notice_along _ _ _)
theorem closeCrossing_along (s : State) : Along s (closeCrossing s).1 := by
  unfold closeCrossing
  dsimp only
  split
  · exact ((Along.inert s _ _ _ _ _ _ _ _ _).trans (count_along _ _)).trans (notice_along _ _ _)
  next v h _ => exact (Along.inert s _ _ _ _ _ _ _ _ _).trans (attributeCrossing_along _ _ _ v (by assumption))
  · exact Along.inert s _ _ _ _ _ _ _ _ _
theorem plateClose_along (s : State) : Along s (plateClose s).1 := by
  unfold plateClose
  split
  · exact Along.refl s
  · exact Along.ite (Along.inert s _ _ _ _ _ _ _ _ _) (Along.refl s)
  · split
    · exact Along.inert s _ _ _ _ _ _ _ _ _
    · exact Along.refl s
  · split
    · exact Along.inert s _ _ _ _ _ _ _ _ _
    · split
      · exact closeCrossing_along s
      · exact Along.inert s _ _ _ _ _ _ _ _ _
theorem plateOn_along (s : State) : Along s (plateOn s) := Along.inert s _ _ _ _ _ _ _ _ _

/-! ### Certificates -/

theorem certSendIfRoom_along (s : State) : Along s (certSendIfRoom s) := by
  unfold certSendIfRoom
  split
  · exact Along.refl s
  · dsimp only
    generalize hl : segments _ = l
    split
    · have a := foldl_along (fun t f => offer_along .station f t) l s
      generalize l.foldl (fun t f => (offer .station f t).1) s = t at a ⊢
      have b : Along t { t with certs := { t.certs with
          due := false, sendCount := min (s.certs.sendCount + 1) 255, lastSend := some s.now } } := Along.toCerts id
      exact (a.trans b).trans (notice_along _ _ _)
    · exact Along.refl s
theorem becomeOldest_along (s : State) : Along s (becomeOldest s) := Along.toCerts id
theorem queueCertificate_along {s t : State} (h : queueCertificate s = some t) : Along s t := by
  unfold queueCertificate at h
  split at h
  · cases h
  next hc =>
    split at h
    · cases h; exact Along.refl s
    · cases h
      have hc' : s.certs.queue.length < 4 := by simpa [certCap] using hc
      have a := fun x : CertState => fun k => (Along.toCerts (s := s) (x := x) k).trans
        (count_along (fun k => { k with certificates := k.certificates + 1 }) _)
      refine Along.ite ((a _ ?_).trans ((becomeOldest_along _).trans (certSendIfRoom_along _))) (a _ ?_) <;>
        exact fun _ => by simp only [List.length_append, List.length_singleton]; omega
theorem removeOldest_along (s : State) : Along s (removeOldest s) := by
  unfold removeOldest
  split
  · exact Along.refl s
  next c rest h =>
    refine (((Along.toCerts ?_).trans (notice_along _ _ _)).trans (becomeOldest_along _)).trans
      (certSendIfRoom_along _)
    exact fun k => by rw [h] at k; exact Nat.le_of_succ_le k

end Sys2Proof.Machine
end

