-- ==== Sys2Proof/Laws/Engine.lean ====
section
/-! SUPPORT. What the Lane Controller, the Step Engine and the consumers of a tick close keep (`Along`), one lemma
for each of their operations. -/

namespace Sys2Proof.Machine

/-! ### Lane -/

theorem goDone_along (n : Nat) (s : State) : Along s (goDone n s) := reply_along _ _ _ _ s
theorem goRefused_along (n : Nat) (s : State) : Along s (goRefused n s) := reply_along _ _ _ _ s
theorem laneStateNotice_along (p : LaneState) (o : LaneOccasion) (s : State) : Along s (laneStateNotice p o s) :=
  notice_along _ _ s
theorem enterLane_along {answer : State → State} (h : ∀ s, Along s (answer s)) (n : LaneState) (o : LaneOccasion)
    (s : State) : Along s (enterLane n o answer s) := by
  unfold enterLane
  refine Along.trans ?_ (laneStateNotice_along _ _ _)
  refine Along.trans ?_ (flushBatches_along _)
  exact (setLane_along _ s).trans (h _)
theorem enterLaneOnly_along (n : LaneState) (o : LaneOccasion) (s : State) : Along s (enterLane n o id s) :=
  enterLane_along Along.refl n o s
theorem exitGuide_along (s : State) : Along s (exitGuide s) := offerGuide_along _ s
theorem enterExit_along (o : LaneOccasion) (s : State) : Along s (enterExit o s) := by
  unfold enterExit
  refine Along.trans ?_ (exitGuide_along _)
  refine Along.trans ?_ (laneStopBoth_along _)
  exact (setLane_along _ s).trans (enterLaneOnly_along _ _ _)
theorem exitReady_along (s : State) : Along s (exitReady s) := by
  unfold exitReady
  split
  · exact (setLane_along _ s).trans (enterExit_along _ _)
  · exact Along.refl s
theorem suspend_along (s : State) : Along s (suspend s) := by
  unfold suspend
  split
  · exact Along.refl s
  · split
    case h_9 => exact setEngine_along _ s
    case h_10 => exact Along.refl s
    all_goals first
      | exact ((resetEval_along s).trans (watchesOff_along _)).trans (setEngine_along _ _)
      | exact setEngine_along _ s
theorem recordCause_along (f : PauseCauses → PauseCauses) (b : Bool) (s : State) : Along s (recordCause f b s) := by
  have a : Along s (s.setLane fun l => { l with causes := f l.causes }) := setLane_along _ s
  have b : Along s (enterLane .paused .pauseCause id
      (laneStopBoth (suspend (s.setLane fun l => { l with causes := f l.causes }))).1) :=
    ((a.trans (suspend_along _)).trans (laneStopBoth_along _)).trans (enterLaneOnly_along _ _ _)
  unfold recordCause
  dsimp only
  split
  · exact b
  · exact b
  · split
    · exact a.trans (laneStopBoth_along _)
    · exact a
  all_goals exact a
theorem testHeadStale_along (s : State) : Along s (testHeadStale s) := by
  unfold testHeadStale
  split
  · split
    · exact Along.refl s
    · exact setLane_along _ s
  · split
    · exact recordCause_along _ _ s
    · exact Along.refl s
theorem testDriveFault_along (s : State) : Along s (testDriveFault s) := by
  unfold testDriveFault
  split
  · split
    · exact Along.refl s
    · exact setLane_along _ s
  · split
    · exact recordCause_along _ _ s
    · exact Along.refl s
theorem estopLane_along (s : State) : Along s (estopLane s) := by
  have a : Along s ((suspend s).setLane fun l =>
      { l with causes := { l.causes with estop := true }, remembered := some s.lane.state }) :=
    (suspend_along s).trans (setLane_along _ _)
  have b := a.trans (enterLaneOnly_along .halted .estop _)
  unfold estopLane
  split
  · exact Along.refl s
  · exact Along.refl s
  all_goals exact b

/-! ### Steps -/

theorem guideStep_along (s : State) : Along s (guideStep s) := by
  unfold guideStep
  split
  · exact Along.refl s
  · exact offerGuide_along _ s
theorem barsClose_along (s : State) : Along s (barsClose s).1 := by
  unfold barsClose
  split
  · exact Along.refl s
  · split
    · have a := (setEngine_along (fun e => { e with barPhase := 0 }) s).trans
        (offer_along .head (barsFrame s) _)
      exact Along.ite a (a.trans (count_along _ _))
    · dsimp only; exact setEngine_along _ s
theorem makeCurrent_along (a b : Nat) (o : BeginOccasion) (s : State) : Along s (makeCurrent a b o s) :=
  setEngine_along _ s
theorem setMark_along (sd : Side) (m : SideMark) (s : State) : Along s (setMark sd m s) := setEngine_along _ s
theorem spinSide_along (sd : Side) (s : State) : Along s (spinSide sd s).1 := by
  unfold spinSide
  split
  · exact (setMark_along _ _ s).trans (judgeStart_along _ _ _)
  all_goals exact setMark_along _ _ s
theorem beginSpin_along (p : PlanStep) (s : State) : Along s (beginSpin p s).1 := by
  have a := (spinSide_along .left s).trans (spinSide_along .right _)
  unfold beginSpin
  dsimp only
  split <;> exact a
theorem measureSide_along (b : Bool) (sd : Side) (s : State) : Along s (measureSide b sd s) := by
  unfold measureSide
  dsimp only
  have e : ∀ m, (setMark sd m s).roller sd = s.roller sd := fun _ => rfl
  split
  · refine (setMark_along sd .measuring s).trans ?_
    cases b <;> exact Along.sameState rfl rfl rfl rfl
  · refine (setMark_along sd .notRun s).trans ?_
    cases b <;> exact Along.sameState rfl rfl rfl rfl
theorem beginMeasure_along (a : Activity) (s : State) : Along s (beginMeasure a s) := Along.inert s _ _ _ _ _ _ _ _ _
theorem beginForce_along (b : Bool) (s : State) : Along s (beginForce b s).1 :=
  ((measureSide_along b .left s).trans (measureSide_along b .right _)).trans (beginMeasure_along _ _)
theorem stopTurning_along (sd : Side) (s : State) : Along s (stopTurning sd s) := by
  unfold stopTurning
  split
  all_goals first | exact laneStop_along sd s | exact Along.refl s
theorem beginStop_along (s : State) : Along s (beginStop s).1 :=
  (stopTurning_along .left s).trans (stopTurning_along .right _)
theorem tryFinish_along (s : State) : Along s (tryFinish s).1 := by
  unfold tryFinish
  split
  next t h => exact queueCertificate_along h
  · dsimp only
    exact ((setEngine_along _ s).trans (setLane_along _ _)).trans (enterLaneOnly_along _ _ _)
theorem beginActions_along (p : PlanStep) (s : State) : Along s (beginActions p s).1 := by
  unfold beginActions
  split
  · exact Along.refl s
  · exact Along.refl s
  · exact Along.inert s _ _ _ _ _ _ _ _ _
  · exact beginSpin_along p s
  · exact beginForce_along false s
  · exact beginForce_along false s
  · exact beginForce_along true s
  · exact beginStop_along s
  · exact (evaluateVehicle_along s).trans (tryFinish_along _)
theorem beginStep_along (o : BeginOccasion) (s : State) : Along s (beginStep o s).1 := by
  unfold beginStep
  split
  · exact Along.refl s
  · dsimp only
    have a := setEngine_along (fun e => { e with
      phase := .waiting, waitOccasion := o, waitTaken := true,
      attempt := if e.waitTaken then e.attempt else nextAttempt o e.attempt }) s
    generalize s.setEngine (fun e => { e with
      phase := .waiting, waitOccasion := o, waitTaken := true,
      attempt := if e.waitTaken then e.attempt else nextAttempt o e.attempt }) = s1 at a ⊢
    refine a.trans ?_
    split
    · have b := (setLane_along (fun l => { l with causes := causesAtBegin s1 }) s1).trans (laneStopBoth_along _)
      dsimp only
      split
      · exact b
      · exact b.trans (enterLaneOnly_along _ _ _)
    · refine Along.trans ?_ (beginActions_along _ _)
      refine Along.trans ?_ (guideStep_along _)
      exact (setEngine_along _ s1).trans (notice_along _ _ _)

theorem abortVehicle_along (s : State) : Along s (abortVehicle s) :=
  ((mapVehicle_along (f := fun v => { v with aborted := true }) (fun _ => rfl) s).trans (count_along _ _)).trans
    (laneStopBoth_along _)
theorem stopHeld_along (sd : Side) (s : State) : Along s (stopHeld sd s) :=
  Along.ite (laneStop_along sd s) (Along.refl s)
theorem beforeResults_along (k : StepKind) (o : StepOutcome) (s : State) : Along s (beforeResults k o s) := by
  cases o
  · exact Along.refl s
  · exact mapVehicle_along (f := fun v => { v with repeats := min (v.repeats + 1) 65535 }) (fun _ => rfl) s
  · exact Along.ite ((stopHeld_along .left s).trans (stopHeld_along .right _)) (Along.refl s)
  · exact abortVehicle_along s
theorem clearEngine_along (s : State) : Along s (clearEngine s) := setEngine_along _ s
theorem nextStep_along (o : StepOutcome) (s : State) : Along s (nextStep o s).1 := by
  cases o <;> exact makeCurrent_along _ _ _ s
theorem stepEndNotice_along (k : StepKind) (e : StepEnding) (o : StepOutcome) (s : State) :
    Along s (stepEndNotice k e o s) := notice_along _ _ s
theorem axleResultNotice_along (a b : Nat) (w : Written) (s : State) : Along s (axleResultNotice a b w s) :=
  notice_along _ _ s
theorem beforeEnd_along (x : StepEnd) (k : StepKind) (s : State) : Along s (beforeEnd x k s) :=
  Along.ite (beforeResults_along _ _ s) ((beforeResults_along _ _ s).trans (closeSides_along _))
theorem writeResults_along (x : StepEnd) (k : StepKind) (w : Option Written) (s : State) :
    Along s (writeResults x k w s) := by
  have c : ∀ t : State, Along t (stepEndNotice k x.ending x.outcome (flushBatches (watchesOff (resetEval t)))) :=
    fun t => (((resetEval_along t).trans (watchesOff_along _)).trans (flushBatches_along _)).trans
      (stepEndNotice_along _ _ _ _)
  cases w with
  | none => exact c s
  | some r => exact ((setAxle_along _ _ s).trans (c _)).trans (axleResultNotice_along _ _ _ _)
theorem concludeStep_along (x : StepEnd) (k : StepKind) (s : State) : Along s (concludeStep x k s) :=
  (beforeEnd_along x k s).trans (writeResults_along _ _ _ _)
theorem afterStep_along (o : StepOutcome) (k : StepKind) (s : State) : Along s (afterStep o k s).1 := by
  unfold afterStep
  dsimp only
  split
  · exact (clearEngine_along s).trans (enterExit_along _ _)
  · split
    · exact nextStep_along _ s
    · dsimp only
      exact (nextStep_along _ s).trans (enterLaneOnly_along _ _ _)
theorem endStep_along (x : StepEnd) (s : State) : Along s (endStep x s).1 := by
  unfold endStep
  split
  · exact Along.refl s
  · exact (concludeStep_along _ _ s).trans (afterStep_along _ _ _)

theorem runEngine_along (k : Nat) (j : Job) (s : State) : Along s (runEngine k j s) := by
  induction k generalizing j s with
  | zero => exact Along.refl s
  | succ k ih =>
    cases j with
    | start o =>
      unfold runEngine
      dsimp only
      have a := beginStep_along o s
      split
      · exact a.trans (ih _ _)
      · exact a
    | finish x =>
      unfold runEngine
      dsimp only
      have a := endStep_along x s
      split
      · exact a.trans (ih _ _)
      · exact a
theorem startStep_along (o : BeginOccasion) (s : State) : Along s (startStep o s) := runEngine_along _ _ s
theorem finishStep_along (x : StepEnd) (s : State) : Along s (finishStep x s) := runEngine_along _ _ s

theorem startTest_along {answer : State → State} (h : ∀ s, Along s (answer s)) (o : LaneOccasion) (s : State) :
    Along s (startTest o answer s) :=
  (((setLane_along _ s).trans (enterLane_along h _ _ _)).trans
    ((setEngine_along _ _).trans (makeCurrent_along _ _ _ _))).trans (startStep_along _ _)
theorem beginAgain_along (o : BeginOccasion) (s : State) : Along s (beginAgain o s) := by
  unfold beginAgain
  split
  · exact (makeCurrent_along _ _ _ s).trans (startStep_along _ _)
  · exact startStep_along _ s
theorem goOn_along (s : State) : Along s (goOn s).1 := by
  unfold goOn
  split
  · exact beginStop_along s
  · exact tryFinish_along s
  · exact Along.refl s
theorem continueStep_along (s : State) : Along s (continueStep s) := by
  unfold continueStep
  dsimp only
  have a := ((setEngine_along (fun e => { e with phase := .running }) s).trans (guideStep_along _)).trans (goOn_along _)
  split
  · exact a.trans (finishStep_along _ _)
  · exact a
theorem takeUp_along (s : State) : Along s (takeUp s) := by
  unfold takeUp
  split
  · exact Along.refl s
  · exact Along.refl s
  · exact beginAgain_along _ s
  · exact (setEngine_along _ s).trans (beginAgain_along _ _)
  · exact continueStep_along s
theorem returnToTesting_along {answer : State → State} (h : ∀ s, Along s (answer s)) (s : State) :
    Along s (returnToTesting answer s) := (enterLane_along h _ _ s).trans (takeUp_along _)
theorem maybeReturn_along (s : State) : Along s (maybeReturn s) :=
  Along.ite (returnToTesting_along Along.refl s) (Along.refl s)

/-! ### Reports -/

theorem spinFails_along (s : State) : Along s (spinFails s) := by
  unfold spinFails
  split
  · exact finishStep_along _ s
  · exact Along.refl s
theorem endIfMeasured_along (s : State) : Along s (endIfMeasured s) :=
  Along.ite (finishStep_along _ s) (Along.refl s)
theorem takeReport_along (r : Report) (s : State) : Along s (takeReport r s) := by
  have ng : ∀ sd, Along s (if spinMark sd .requested s then spinFails s else s) := fun _ =>
    Along.ite (spinFails_along s) (Along.refl s)
  cases r with
  | standstill sd =>
    unfold takeReport
    dsimp only
    have a := (setMark_along sd .requested s).trans (judgeStart_along .sequence sd _)
    exact Along.ite (Along.ite a (a.trans (spinFails_along _)))
      (Along.ite (finishStep_along _ s) (Along.refl s))
  | refused sd => exact ng sd
  | spinUpOk sd =>
    unfold takeReport
    exact Along.ite (Along.ite ((setMark_along _ _ s).trans (finishStep_along _ _)) (setMark_along _ _ s))
      (Along.refl s)
  | spinUpNg sd => exact ng sd
  | leftRunning sd =>
    unfold takeReport
    exact Along.ite (setMark_along _ _ s)
      (Along.ite ((endStopped_along sd s).trans (endIfMeasured_along _)) (Along.refl s))
theorem takeReports_along (l : List Report) (s : State) : Along s (takeReports l s) :=
  (foldl_along (fun t r => takeReport_along r t) l s).trans (exitReady_along _)

/-! ### The discard and the clearance -/

theorem forget_along (s : State) (l : LaneControl) : Along s { s with
    vehicle := none, plate := PlateUnit.reset, clock := { s.clock with live := 0, hold := 0 }, lane := l } :=
  ⟨KeepsPort.refl _ _, KeepsPort.refl _ _, id, .inl rfl, .inl rfl, id, fun _ => rfl, fun _ => ⟨rfl, rfl⟩, rfl,
    id, ⟨rfl, rfl, rfl⟩, (fun _ _ h => by cases h), rfl, ⟨rfl, rfl⟩, rfl, id⟩
theorem discard_along (s : State) : Along s (discard s) :=
  (((resetEval_along s).trans (watchesOff_along _)).trans (clearEngine_along _)).trans (forget_along _ _)
theorem discardWith_along (o : SwitchOccasion) (s : State) : Along s (discardWith o s) :=
  (discard_along s).trans (applyPending_along _ _)
theorem periodicZero_along (s : State) : Along s (periodicZero s) := by
  unfold periodicZero
  dsimp only
  split
  · exact (syncBroadcast_along _ _ s).trans (setLane_along _ _)
  · exact setLane_along _ s
theorem clearance_along (s : State) : Along s (clearance s) :=
  Along.ite
    (Along.ite (((discardWith_along _ s).trans (periodicZero_along _)).trans (enterLaneOnly_along _ _ _))
      ((periodicZero_along s).trans (enterLaneOnly_along _ _ _)))
    (Along.refl s)

/-! ### Tick closes -/

theorem presenceClose_along (s : State) : Along s (presenceClose s).1 := by
  unfold presenceClose
  dsimp only
  split
  · exact Along.refl s
  · split
    · exact Along.refl s
    · split
      · split
        · exact (setEngine_along _ s).trans (finishStep_along _ _)
        · exact setEngine_along (fun e => { e with presence := _ }) s
      · exact setEngine_along (fun e => { e with presence := _ }) s
theorem consumersA_along (s : State) : Along s (consumersA s).1 := by
  unfold consumersA
  dsimp only
  refine Along.trans ?_ ((takeReports_along _ _).trans (endIfMeasured_along _))
  refine Along.trans ?_ (barsClose_along _)
  have a := (sideClose_along .left s).trans (sideClose_along .right _)
  exact Along.ite (a.trans (measureClose_along _ _)) a
theorem weighClose_along (s : State) : Along s (weighClose s).1 := by
  unfold weighClose
  split
  · exact settleClose_along s
  · exact Along.refl s
theorem consumersB_along (s : State) : Along s (consumersB s).1 := by
  unfold consumersB
  dsimp only
  have b := (weighClose_along s).trans (plateClose_along _)
  split
  · exact b.trans (finishStep_along _ _)
  · exact b.trans (presenceClose_along _)
theorem autoPassage_along (c : Cadence) (b : Bool) (s : State) : Along s (autoPassage c b s) :=
  Along.ite (Along.ite (startTest_along Along.refl _ s) (Along.ite (setLane_along _ s) (Along.refl s))) (Along.refl s)
theorem consumers_along (c : Cadence) (o : CloseOrder) (s : State) : Along s (consumers c o s).1 := by
  unfold consumers
  dsimp only
  have a : Along s (if o == .clearanceFirst then clearance s else s) := Along.ite (clearance_along s) (Along.refl s)
  refine a.trans ?_
  generalize (if o == .clearanceFirst then clearance s else s) = t
  cases c with
  | a =>
    have b := (consumersA_along t).trans (autoPassage_along .a false _)
    exact Along.ite (b.trans (clearance_along _)) b
  | b =>
    have b := (consumersB_along t).trans (autoPassage_along .b (consumersB t).2.2 _)
    exact Along.ite (b.trans (clearance_along _)) b
theorem closeAndReport_along (c : Cadence) (o : OpenTick) (q : Quantity) (s : State) :
    Along s (closeAndReport c o q s).1 :=
  Along.ite ((closeQuantity_along c o q s).trans (testHeadStale_along _)) (closeQuantity_along c o q s)
theorem closeQuantities_along (c : Cadence) (o : OpenTick) (l : List Quantity) (s : State) :
    Along s (closeQuantities c o l s).1 := by
  induction l generalizing s with
  | nil => exact Along.refl s
  | cons a rest ih => exact (closeAndReport_along _ _ _ s).trans (ih _)
theorem conditionerClose_along (c : Cadence) (o : OpenTick) (s : State) : Along s (conditionerClose c o s) :=
  (closeQuantities_along c o _ s).trans (setLastSet_along _ _ _)
theorem deliver_along (c : Cadence) (x : OpenTick) (s : State) : Along s (deliver c x s) :=
  (conditionerClose_along c x s).trans (buildBatches_along c (s.cad c).tick _)
theorem tickClose_along (c : Cadence) (x : OpenTick) (o : CloseOrder) (s : State) : Along s (tickClose c x o s).1 :=
  ((deliver_along c x s).trans (consumers_along c o _)).trans (maybeReturn_along _)

/-! ### What falls due -/

theorem timeoutExpiry_along (s : State) : Along s (timeoutExpiry s) := by
  unfold timeoutExpiry
  split
  · exact Along.refl s
  · exact Along.ite (finishStep_along _ s) (Along.refl s)
theorem spinUpWindowEnds_along (sd : Side) (s : State) : Along s (spinUpWindowEnds sd s) := by
  unfold spinUpWindowEnds
  split
  · exact Along.ite ((spinUpExpiry_along sd s).trans (takeReports_along _ _)) (Along.refl s)
  · exact Along.refl s
theorem heldTest_along (sd : Side) (s : State) : Along s (heldTest sd s) := by
  unfold heldTest
  split
  next h =>
    rw [Bool.and_eq_true, beq_iff_eq] at h
    exact (testHeld_along h.1).trans (takeReports_along _ _)
  · exact Along.refl s
theorem resendDue_along (s : State) : Along s (resendDue s) := by
  unfold resendDue
  split
  · split
    · have a : Along s { s with certs := { s.certs with due := true } } := Along.toCerts id
      exact a.trans (certSendIfRoom_along _)
    · exact Along.refl s
  · exact Along.refl s
theorem pendingGuideOffered_along (s : State) : Along s (pendingGuideOffered s) := by
  unfold pendingGuideOffered
  split
  · exact Along.refl s
  · exact Along.ite (offerGuide_along _ s) (Along.refl s)
theorem takeFreedPlaces_along (s : State) : Along s (takeFreedPlaces s) :=
  (certSendIfRoom_along s).trans (pendingGuideOffered_along _)

end Sys2Proof.Machine
end

