-- ==== Sys2Proof/Laws/PerInstr.lean ====
section
/-! SUPPORT. Statements about every command, one lemma per constructor: every command but a reception is well
formed whatever its operands. -/

/-- Only a reception can be ill formed. -/
def Sys2Proof.Laws.WellFormedUnlessReception.Statement (i : Sys2Proof.Instr) : Prop :=
  (∀ p line, i ≠ .reception p line) → Sys2Proof.wellFormed i = true

namespace Sys2Proof.Laws.WellFormedUnlessReception

theorem powerOnReset : Statement (.powerOnReset) := fun _ => rfl
theorem reception (p : Port) (line : List Byte) : Statement (.reception p line) := fun h => absurd rfl (h p line)
theorem sendBegin (p : Port) : Statement (.sendBegin p) := fun _ => rfl
theorem stationSendCompletion : Statement (.stationSendCompletion) := fun _ => rfl
theorem headSendCompletion : Statement (.headSendCompletion) := fun _ => rfl
theorem misdirectedFrame (p : Port) : Statement (.misdirectedFrame p) := fun _ => rfl
theorem forwardedFrame (p : Port) : Statement (.forwardedFrame p) := fun _ => rfl
theorem sampleFrame : Statement (.sampleFrame) := fun _ => rfl
theorem statusFrame : Statement (.statusFrame) := fun _ => rfl
theorem stationStart : Statement (.stationStart) := fun _ => rfl
theorem stationStop : Statement (.stationStop) := fun _ => rfl
theorem unknownRequest : Statement (.unknownRequest) := fun _ => rfl
theorem tableWrite : Statement (.tableWrite) := fun _ => rfl
theorem tableRead : Statement (.tableRead) := fun _ => rfl
theorem bankSwitchApply : Statement (.bankSwitchApply) := fun _ => rfl
theorem bankSwitchCancel : Statement (.bankSwitchCancel) := fun _ => rfl
theorem bankStatus : Statement (.bankStatus) := fun _ => rfl
theorem goIdle : Statement (.goIdle) := fun _ => rfl
theorem goOff : Statement (.goOff) := fun _ => rfl
theorem goManual : Statement (.goManual) := fun _ => rfl
theorem goEntry : Statement (.goEntry) := fun _ => rfl
theorem goTest : Statement (.goTest) := fun _ => rfl
theorem goEntryToTest : Statement (.goEntryToTest) := fun _ => rfl
theorem goPause : Statement (.goPause) := fun _ => rfl
theorem goResume : Statement (.goResume) := fun _ => rfl
theorem vehicleOpen : Statement (.vehicleOpen) := fun _ => rfl
theorem vehicleCancel : Statement (.vehicleCancel) := fun _ => rfl
theorem laneReset : Statement (.laneReset) := fun _ => rfl
theorem cadenceSet : Statement (.cadenceSet) := fun _ => rfl
theorem syncRequestZero : Statement (.syncRequestZero) := fun _ => rfl
theorem syncRequestStreamOn : Statement (.syncRequestStreamOn) := fun _ => rfl
theorem syncRequestStreamOff : Statement (.syncRequestStreamOff) := fun _ => rfl
theorem syncRequestHeadRestart : Statement (.syncRequestHeadRestart) := fun _ => rfl
theorem countersLatch : Statement (.countersLatch) := fun _ => rfl
theorem statusRead : Statement (.statusRead) := fun _ => rfl
theorem logRead : Statement (.logRead) := fun _ => rfl
theorem certAck : Statement (.certAck) := fun _ => rfl
theorem certNumberSet : Statement (.certNumberSet) := fun _ => rfl
theorem tickIssue (c : Cadence) (o : CloseOrder) : Statement (.tickIssue c o) := fun _ => rfl
theorem quantityStale (q : Quantity) (o : CloseOrder) : Statement (.quantityStale q o) := fun _ => rfl
theorem lock (sd : Side) (o : CloseOrder) : Statement (.lock sd o) := fun _ => rfl
theorem release (sd : Side) (o : CloseOrder) : Statement (.release sd o) := fun _ => rfl
theorem revolutionCarry (sd : Side) (o : CloseOrder) : Statement (.revolutionCarry sd o) := fun _ => rfl
theorem presenceCountReached (o : CloseOrder) : Statement (.presenceCountReached o) := fun _ => rfl
theorem guideBars (o : CloseOrder) : Statement (.guideBars o) := fun _ => rfl
theorem laneMillisecond : Statement (.laneMillisecond) := fun _ => rfl
theorem stepTimeout : Statement (.stepTimeout) := fun _ => rfl
theorem spinUpWindowExpiry (sd : Side) : Statement (.spinUpWindowExpiry sd) := fun _ => rfl
theorem heldStartPermitted (sd : Side) : Statement (.heldStartPermitted sd) := fun _ => rfl
theorem historyEntryAged (sd : Side) : Statement (.historyEntryAged sd) := fun _ => rfl
theorem certResendDue : Statement (.certResendDue) := fun _ => rfl
theorem certSend : Statement (.certSend) := fun _ => rfl
theorem pendingGuideOffer : Statement (.pendingGuideOffer) := fun _ => rfl
theorem startDelimiterSeen (p : Port) : Statement (.startDelimiterSeen p) := fun _ => rfl
theorem referenceStep : Statement (.referenceStep) := fun _ => rfl

end Sys2Proof.Laws.WellFormedUnlessReception
end

