-- ==== Sys2Proof/Tests/Slice0.lean ====
section
/-! SUPPORT. The author's tests: ill-formed commands are refused, worked values of the spec, and for every
statement with hypotheses a named state and operands that meet them. -/

namespace Sys2Proof.Tests

set_option Elab.async false
open Sys2Proof Sys2Proof.Machine

/-! ### Ill-formed commands -/

theorem test_early_delimiter_refused : wellFormed (.reception .head [1, 0xF3, 2]) = false := by decide
theorem test_long_line_refused : wellFormed (.reception .head (List.replicate 255 0)) = false := by decide +kernel
theorem test_longest_line_taken : wellFormed (.reception .head (List.replicate 254 0)) = true := by decide +kernel

/-! ### A small lane -/

def entry (node channel : Nat) (q : Quantity) (c : Cadence) (tareable : Bool := false) : Option MapEntry :=
  some { node, channel, quantity := q, cadence := c, calibration := 0, tareable, disposition := .off,
         decimation := 0, holdLimit := 3 }

def planStep (k : StepKind) (timeout : Nat) (action : TimeoutAction) : Option PlanStep :=
  some { kind := k, message := 10, timeout, action, repeatLimit := 2, parkOnly := false }

def classOne : ClassLimits :=
  { ClassLimits.none with serviceMin := 500, lockSlip := 300, lockConfirm := 3, engageForce := 2000,
                          releaseForce := 1000, releaseConfirm := 2, wheelCircumference := 3000, plan := 1 }

def steps : List (Option PlanStep) :=
  [planStep .axleIn 60000 .rep, planStep .weigh 20000 .rep, planStep .spin 15000 .rep,
   planStep .service 30000 .abort, planStep .hold 30000 .rep, planStep .stop 10000 .abort, planStep .finish 0 .skip]

/-- Brake head 5 on cadence A, scale head 6 and plate head 7 on B, drive cabinet 3, display 9. -/
def bank : Bank :=
  { Bank.empty with
    directory := [some ⟨3, .driveCabinet, true⟩, some ⟨9, .display, true⟩, some ⟨5, .brakeHeadL, true⟩,
      some ⟨6, .scaleHead, true⟩, some ⟨7, .plateHead, true⟩] ++ List.replicate 11 none
    channels := [entry 5 0 .driveSpeedL .a, entry 5 1 .followSpeedL .a, entry 5 2 .brakeForceL .a true,
      entry 5 3 .followPulsesL .a, entry 6 0 .axlePresentL .b, entry 6 1 .axlePresentR .b,
      entry 6 2 .wheelLoadL .b true, entry 7 0 .plateOccupied .b] ++ List.replicate 56 none
    calibration := some { rangeMin := -100000, rangeMax := 100000, points := [(-32000, -32000), (32000, 32000)] } ::
      List.replicate 31 none
    classes := List.replicate 8 (some classOne)
    plans := List.replicate 24 none ++ steps ++ List.replicate 161 none
    settings := some { LaneSettings.powerOn with followerCircumference := some 250, pulsesPerRev := some 40,
                                                 batchLevel := some 4 } }

/-- A frame of the part waits in the head port, so that every offer is queued. -/
def sent : Frame := originate 63 0x05 [2]

def lane : State :=
  { State.reset with
    working := bank, shadow := bank, banks := { State.reset.banks with valid := true },
    head := { PortState.reset with tx := .taken sent }, station := { PortState.reset with tx := .taken sent } }

/-- The lane with both transmitters idle and nothing waiting for them. -/
def quietLane : State := { lane with head := PortState.reset, station := PortState.reset }

theorem quietLane_quiet (p : Port) : quiet quietLane p := by
  cases p
  · exact ⟨rfl, rfl, rfl, rfl⟩
  · exact ⟨rfl, rfl⟩

def inState (l : LaneState) (s : State) : State := { s with lane := { s.lane with state := l } }

def vehicle : VehicleRecord :=
  { ident := [65], dateTime := none, cls := 1, n := 2, park := [2], generation := 0, openTime := 0,
    aborted := false, repeats := 0, extra := 0, axles := List.replicate 2 AxleEntry.empty, results := none }

def halted (r : LaneState) : State :=
  { lane with lane := { lane.lane with state := .halted, remembered := some r } }

def opened (s : State) : State := { s with vehicle := some vehicle }

/-- Step `i` of the plan is RUNNING for axle 1. -/
def running (i : Nat) (s : State) : State :=
  { s with engine := { s.engine with plan := some 1, step := some i, axle := 1, phase := .running } }

def frame (dst src : Byte) (kind : Byte) (payload : List Byte) : Frame :=
  { dst, src, kind, payload, check := crc16 (checkedBytes dst src kind payload) }

def request (payload : List Byte) : Frame := frame 0 62 kindMgmt payload

/-- The request at the front of the station FIFO. -/
def asked (payload : List Byte) (s : State) : State :=
  { s with station := { s.station with fifo := [request payload] } }

theorem asked_asks (payload : List Byte) (s : State) : (asked payload s).asks (request payload) payload :=
  ⟨rfl, by simp [isRequest, request, frame]; decide⟩

def atPort (p : Port) (f : Frame) (s : State) : State := s.setPort p { s.port p with fifo := [f] }

def receiving (p : Port) (s : State) : State := s.setPort p { s.port p with rx := .receiving }

def side (x : RollerSide) (s : State) : State := s.setRoller .left x

/-- A tick of the cadence is open and its next carry has come. -/
def tickDue (c : Cadence) (s : State) : State :=
  s.setCad c { s.cad c with running := true, carryDue := true, openTick := some { skipped := false, void := false } }

/-- Every quantity holds x as its last converted value. -/
def allHold (x : Int) (s : State) : State :=
  { s with quantities := s.quantities.map fun y => { y with lastRaw := some x, lastConv := some x } }

/-- The set of cadence B with one value for every quantity. -/
def setB (x : Int) (s : State) : State :=
  let d : Delivery := { value := some x, conv := some x, clamp := false, cond := .fresh, stale := false }
  { s with setB := { tick := some 0, records := List.replicate 16 (some d) } }

def certificate (n : Word32) : Certificate := assemble n vehicle (evaluate classOne [] false vehicle) 0 0

/-- What `exec` leaves, for a test on some of its fields. -/
def after {α : Type} (c : Instr) (s : State) (read : State → α) : Option α :=
  match exec c s with
  | .next t => some (read t)
  | _ => none

/-! ### Values the spec gives -/

theorem test_crc16 : crc16 [0x31, 0x32, 0x33, 0x34, 0x35, 0x36, 0x37, 0x38, 0x39] = 0x29B1 := by
  decide +kernel
theorem test_crc32 : crc32 [0x31, 0x32, 0x33, 0x34, 0x35, 0x36, 0x37, 0x38, 0x39] = 0xCBF43926 := by
  decide +kernel

/-- The table of R23. -/
theorem test_increments : [1, 10, 20, 200, 1000].map incrementOf = [4295, 42950, 85899, 858993, 4294967] := by
  decide +kernel

/-- Calibration entries 4 and 9 of section 2.3.1. -/
def rising : CalEntry := { rangeMin := 0, rangeMax := 50000, points := [(0, 0), (20000, 25000), (30000, 40000)] }
def falling : CalEntry := { rangeMin := -1500, rangeMax := 1500, points := [(-20000, 1500), (0, 0), (20000, -1500)] }

/-- The worked conversions of section 2.3.1. -/
theorem test_conversions :
    [24000, 31000, -50, 20000].map (convert rising) = [31000, 40000, 0, 25000] ∧
    [7001, -7001].map (convert falling) = [-525, 526] := by decide

theorem test_bank_is_valid : validate bank = none := by decide +kernel

theorem test_goIdle : after .goIdle (asked [0x05, 0x01] lane) (fun t => (t.lane.state, t.cadA.running)) =
    some (.idle, true) := by decide +kernel

theorem test_powerOnReset_keeps_commands :
    after .powerOnReset { lane with pending := [.goIdle] } (·.pending) = some [.goIdle] := by decide +kernel

theorem test_cadenceSet_boundaries :
    [9, 10, 1000, 1001].map (fun r : Word16 => after .cadenceSet (asked (0x09 :: 0 :: word16 r) lane) (·.cadA.rate)) =
      [some 200, some 10, some 1000, some 200] := by decide +kernel

theorem test_tickIssue_wraps :
    after (.tickIssue .a .clearanceLast) (tickDue .a { lane with cadA := { lane.cadA with tick := 65535 } })
      (·.cadA.tick) = some 0 := by decide +kernel

/-- A hold limit of 3: the third missing close makes the quantity STALE (R35). -/
theorem test_third_missing_close_is_stale :
    after (.tickIssue .a .clearanceLast)
      ((tickDue .a lane).setQty .driveSpeedL { QuantityState.reset with missing := 2 })
      (fun t => (t.qty .driveSpeedL).stale) = some true := by decide +kernel

/-- The current step has run for a time. -/
def ran (n : Nat) (s : State) : State := { s with engine := { s.engine with elapsed := n } }

theorem test_repeat_count_stays_at_65535 :
    after .stepTimeout
      (inState .testing (running 0 (ran 60000 { lane with vehicle := some { vehicle with repeats := 65535 } })))
      (fun t => t.vehicle.map (·.repeats)) = some (some 65535) := by decide +kernel

theorem test_referenceStep_carry :
    after .referenceStep { lane with cadA := { lane.cadA with running := true, acc := 4294967295 } }
      (fun t => (t.cadA.acc, t.cadA.carryDue)) = some (858992, true) := by decide +kernel

theorem test_sampleFrame_used :
    after .sampleFrame (atPort .head (frame 0 5 kindSample [0, 0, 1, 0xFF, 0xFE]) (tickDue .a lane))
      (fun t => (t.qty .driveSpeedL).pendingRaw) = some (some (-2)) := by decide +kernel

theorem test_statusFrame_estop :
    after .statusFrame (atPort .head (frame 0 3 kindStatus [0, 0, 0, 0, 1]) (inState .idle lane))
      (fun t => (t.lane.state, t.lane.remembered)) = some (.halted, some .idle) := by decide +kernel

/-- R1: a second start delimiter ends the reception in a framing error and begins the next. -/
theorem test_second_start_delimiter :
    after (.startDelimiterSeen .head) { lane with head := { lane.head with rx := .receiving } }
      (fun t => (t.head.rx, t.live.head.framesIn, t.live.head.framing)) = some (.receiving, 1, 1) := by decide +kernel

/-- R97, R172: a step with a timeout of 60,000 ms expires in the reference step of its lane millisecond. -/
theorem test_timeout_in_its_millisecond :
    after .referenceStep { inState .testing (running 0 (ran 59999 (opened lane))) with
        clock := { lane.clock with msDue := true } }
      (fun t => (t.engine.attempt, t.vehicle.map (·.repeats))) = some (2, some 1) := by decide +kernel

theorem test_certSend : after .certSend { lane with certs := { lane.certs with queue := [certificate 7], due := true } }
    (fun t => (t.certs.due, t.station.queue.length)) = some (false, 2) := by decide +kernel

/-! ### States and operands that meet the hypotheses of the statements

Each theorem is named after its statement; its parts follow the order of the statement's clauses. A premise that a
request stands at the front of the station FIFO is met in every state by `asked_asks`. -/

theorem wit_StepRunsFrontCommand :
    ({ lane with pending := [.referenceStep] } : State).pending = [.referenceStep] ∧ lane.pending = [] := by decide +kernel

/-- A payload of the greatest length, every byte of which is escaped. -/
def longFrame : Frame := frame 0 5 kindSample (List.replicate 120 0xF2)

theorem frame_check (dst src kind : Byte) (payload : List Byte) :
    (frame dst src kind payload).check = crc16 (checkedBytes dst src kind payload) := rfl

theorem wit_GoodFrameJoinsFifo_check :
    longFrame.check = crc16 (checkedBytes longFrame.dst longFrame.src longFrame.kind longFrame.payload) :=
  frame_check 0 5 kindSample (List.replicate 120 0xF2)

theorem wit_GoodFrameJoinsFifo :
    ((receiving .head lane).port .head).rx = .receiving ∧ longFrame.payload.length ≤ 120 ∧
    ((receiving .head lane).port .head).fifo.length < fifoCap .head ∧
    ¬ ((receiving .head { lane with head := { lane.head with fifo := List.replicate 32 sent } }).port .head).fifo.length
        < fifoCap .head := by decide +kernel

theorem wit_LengthErrorCounted : ((receiving .station lane).port .station).rx = .receiving ∧
    ∀ l ∈ ([[], [1, 2, 3, 0, 0], [0, 0, 0, 121] ++ List.replicate 122 0, [0, 0, 0, 1, 0, 0]] : List (List Byte)),
      l.length ≤ 126 ∧ (l.length < 6 ∨ 120 < (l.getD 3 0).toNat ∨ l.length ≠ (l.getD 3 0).toNat + 6) := by
  decide +kernel

set_option maxRecDepth 20000 in
theorem wit_BrokenReceptionsCounted : ((receiving .head lane).port .head).rx = .receiving ∧
    (∀ l ∈ ([[0, 0, 0, 0, 0, 0], [0, 0, 0, 120] ++ List.replicate 122 0] : List (List Byte)),
      l.length ≤ 126 ∧ 6 ≤ l.length ∧ (l.getD 3 0).toNat ≤ 120 ∧ l.length = (l.getD 3 0).toNat + 6 ∧
      crc16 (l.take (l.length - 2)) ≠ BitVec.ofNat 16 (readNat (l.drop (l.length - 2)))) ∧
    (List.replicate 126 (0 : Byte)).length ≤ 126 ∧ (List.replicate 127 (0xF2 : Byte)).length = 127 ∧
    ¬ (0xE0 : Byte) ∈ ([0xE1, 0xE2, 0xE3, 0xF2, 0xF3] : List Byte) := by decide +kernel

/-- The head port sends a frame. -/
def sending (f : Frame) : State := { lane with head := { lane.head with tx := .sending f (lineBytes f) } }

theorem wit_SendsBeginAndComplete :
    (lane.port .head).rx ≠ .receiving ∧ ((receiving .head lane).port .head).rx = .receiving ∧
    (lane.port .head).tx = .taken sent ∧
    ({ lane.station with tx := .sending sent [] } : PortState).tx = .sending sent [] ∧
    (sending sent).head.tx = .sending sent (lineBytes sent) ∧ isStart .left sent = false ∧
    isStart .right sent = false ∧
    (sending (startFrame 3 .left)).head.tx = .sending (startFrame 3 .left) (lineBytes (startFrame 3 .left)) ∧
    isStart .left (startFrame 3 .left) = true := by decide +kernel

theorem wit_FramesDiscardedOrForwarded :
    -- a bad source, a bad destination, a kind only the part sends, a STATUS from a station, an unknown kind to the part
    (∀ f ∈ [frame 0 48 2 [], frame 48 62 0 [], frame 0 61 1 []], ((atPort .station f lane).port .station).fifo = [f]) ∧
    ¬ (1 ≤ (48 : Byte).toNat ∧ (48 : Byte).toNat ≤ 47) ∧ 48 ≤ (48 : Byte).toNat ∧ 63 ≤ (63 : Byte).toNat ∧
    (1 : Byte) ∈ ([0x01, 0x05, 0x06, 0x07, 0x08, 0x09, 0x0B, 0x0C] : List Byte) ∧ 0x0C < (0x0D : Byte).toNat ∧
    -- a STATUS of brake head 5, and a STATUS and a COMMAND with no valid bank
    cabinetNode lane ≠ some (frame 0 5 3 []).src.toNat ∧ State.reset.banks.valid = false ∧
    -- a foreign frame each way, and COMMANDs for another head or with another code
    (lane.port (otherPort .head)).tx ≠ .idle ∧ (lane.port (otherPort .station)).tx ≠ .idle ∧
    isHead 47 = true ∧ isStation 61 = true ∧ isHead 1 = true ∧ isStation 62 = true ∧
    cabinetNode lane = some 3 ∧ (9 : Byte).toNat ≠ 3 ∧
    [(3 : Byte)].head? ≠ some 0x01 ∧ [(3 : Byte)].head? ≠ some 0x02 := by decide +kernel

/-- A foreign frame for an idle opposite port. -/
theorem wit_FramesDiscardedOrForwarded_idle (p : Port) : quiet quietLane (otherPort p) := quietLane_quiet _

theorem wit_StopTakesItsPlace : lane.head.tx ≠ .idle ∧ quiet quietLane .head :=
  ⟨by decide +kernel, quietLane_quiet _⟩
theorem wit_RepliesAndNoticesOffered : (∀ p, (lane.port p).tx ≠ .idle) ∧ ∀ p, quiet quietLane p :=
  ⟨fun p => by cases p <;> decide +kernel, quietLane_quiet⟩

/-- A SAMPLE of brake head 5 with one value, for the open tick 0. -/
def oneValue (src : Byte) : Frame := frame 0 src kindSample (word16 0 ++ 1 :: word16 0x8000)
def sampled (x : QuantityState) : State := (atPort .head (oneValue 5) (tickDue .a lane)).setQty .driveSpeedL x

/-- A SAMPLE with n values. -/
def values (src : Byte) (n : Nat) : Frame :=
  frame 0 src kindSample (word16 0 ++ BitVec.ofNat 8 n :: (List.replicate n (0x8000 : Word16)).flatMap word16)

/-- Brake head 5 maps channels 0 to 3; each of its four values is used, and the other four are ignored. -/
theorem test_sampleFrame_of_eight :
    after .sampleFrame (atPort .head (values 5 8) (tickDue .a lane))
      (fun t => ([Quantity.driveSpeedL, .followSpeedL, .brakeForceL, .followPulsesL].map fun q => (t.qty q).pendingRaw,
        t.live.unmapped)) = some (List.replicate 4 (some (-32768)), 0) := by decide +kernel

theorem wit_SampleJudged :
    (∀ f ∈ [oneValue 5, frame 0 5 2 [], frame 0 5 2 [0, 0, 0], frame 0 5 2 [0, 0, 9], frame 0 5 2 [0, 0, 8, 1]],
      (atPort .head f lane).head.fifo.head? = some f ∧ isHead f.src = true ∧ f.dst = 0 ∧ f.kind = 0x02) ∧
    keyEntry lane (8 : Byte).toNat 0 = none ∧ keyEntry lane (5 : Byte).toNat 0 = entry 5 0 .driveSpeedL .a ∧
    -- late without an open tick; else the open tick is tick 0
    (lane.cad .a).openTick = none ∧
    ((sampled QuantityState.reset).cad .a).openTick = some { skipped := false, void := false } ∧
    ((sampled QuantityState.reset).cad .a).tick = 0 ∧
    ((sampled { QuantityState.reset with pendingRaw := some 1 }).qty .driveSpeedL).pendingRaw.isSome ∧
    ((sampled { QuantityState.reset with firstSample := true }).qty .driveSpeedL).firstSample = true ∧
    ((sampled QuantityState.reset).qty .driveSpeedL).pendingRaw = none ∧
    ((sampled QuantityState.reset).qty .driveSpeedL).excused = false ∧
    ((sampled QuantityState.reset).qty .driveSpeedL).firstSample = false ∧
    -- eight values: none of head 8 is mapped, the first four of head 5 are
    (values 8 8).payload = word16 0 ++ BitVec.ofNat 8 (List.replicate 8 (0x8000 : Word16)).length ::
      (List.replicate 8 0x8000).flatMap word16 ∧
    (∀ i < 8, keyEntry lane (8 : Byte).toNat i = none) ∧ keyEntry lane (5 : Byte).toNat 3 = entry 5 3 .followPulsesL .a ∧
    keyEntry lane (5 : Byte).toNat 4 = none := by decide +kernel

theorem lane_logsFit : logsFit lane := by
  unfold logsFit; decide +kernel

theorem wit_ConversionRule :
    (2 ≤ falling.points.length ∧ falling.points.length ≤ 8 ∧ falling.points.Pairwise (fun p q => p.1 < q.1) ∧
      (∀ p ∈ falling.points, -32768 ≤ p.1 ∧ p.1 ≤ 32767 ∧ -2000000 ≤ p.2 ∧ p.2 ≤ 2000000) ∧
      falling.points.head? = some (-20000, 1500) ∧ falling.points.getLast? = some (20000, -1500) ∧
      (-32768 : Int) ≤ -20000 ∧ (20000 : Int) ≤ 32767 ∧ falling.points[1]? = some (0, 0) ∧
      falling.points[2]? = some (20000, -1500) ∧ (0 : Int) ≤ 0 ∧ (19999 : Int) < 20000) ∧
    mapped (sampled { QuantityState.reset with pendingRaw := some (-32768) }) .driveSpeedL =
      entry 5 0 .driveSpeedL .a ∧
    ((sampled { QuantityState.reset with pendingRaw := some (-32768) }).qty .driveSpeedL).pendingRaw =
      some (-32768) := by decide +kernel

/-- The lane with one Channel Map entry, forwarded RAW with decimation 1, and its last set of A delivering x. -/
def forwarded (x : Option Int) : State :=
  { lane with
    working := { bank with channels := [(entry 5 0 .driveSpeedL .a).map fun m =>
      { m with disposition := .raw, decimation := 1 }] ++ List.replicate 63 none }
    setA := { tick := some 0, records := List.replicate 16 (some
      { value := x, conv := x, clamp := true, cond := .held, stale := false }) } }

theorem wit_QuantityAtClose :
    lane.live.quantities.length = 16 ∧ mapped lane .driveSpeedL = entry 5 0 .driveSpeedL .a ∧
    -- batches: empty and one value; a busy station port; off, not of the cadence, not mapped
    lane.station.tx ≠ .idle ∧ (lane.qty .driveSpeedL).batch.values = [] ∧
    ((lane.setQty .driveSpeedL { QuantityState.reset with batch := ⟨0, [(1, false)]⟩ }).qty .driveSpeedL).batch.values
      ≠ [] ∧
    (mapped lane .driveSpeedL).map (·.disposition) = some .off ∧ mapped lane .pedalForce = none ∧
    -- due with phase 0, not due with phase 1 of 1; absent and a value
    (mapped (forwarded none) .driveSpeedL).map (fun m => (m.cadence, m.disposition, m.decimation)) =
      some (.a, .raw, 1) ∧
    ((forwarded none).qty .driveSpeedL).phase = 0 ∧ value (forwarded none) .driveSpeedL = none ∧
    value (forwarded (some 9)) .driveSpeedL = some 9 ∧
    (((forwarded (some 9)).setQty .driveSpeedL { QuantityState.reset with lastRaw := some (-3), phase := 1 }).qty
      .driveSpeedL).lastRaw = some (-3) := by decide +kernel

theorem wit_QuantityGoesStale :
    let s := (tickDue .a lane).setQty .driveSpeedL { QuantityState.reset with missing := 2 }
    mapped s .driveSpeedL = entry 5 0 .driveSpeedL .a ∧ (s.qty .driveSpeedL).pendingRaw = none ∧
    (s.qty .driveSpeedL).excused = false ∧ (s.qty .driveSpeedL).stale = false ∧
    (s.qty .driveSpeedL).missing + 1 = 3 := by decide +kernel

theorem tickDue_closes (c : Cadence) (s : State) :
    closesTick (tickDue c s) c { skipped := false, void := false } := by
  cases c <;> exact ⟨rfl, rfl, rfl⟩

theorem wit_FirstTickIssued :
    let s := lane.setCad .a { lane.cadA with running := true, carryDue := true }
    (s.cad .a).running = true ∧ (s.cad .a).carryDue = true ∧ (s.cad .a).openTick = none ∧ s.head.tx ≠ .idle := by
  decide +kernel

theorem wit_FirstTickIssued_idle :
    let s := quietLane.setCad .a { lane.cadA with running := true, carryDue := true }
    (s.cad .a).running = true ∧ (s.cad .a).carryDue = true ∧ (s.cad .a).openTick = none ∧ quiet s .head :=
  ⟨rfl, rfl, rfl, quietLane_quiet .head⟩

theorem wit_TickNumbersAdvance :
    ((tickDue .b lane).cad .b).running = true ∧ ((tickDue .b lane).cad .b).carryDue = true ∧ Cadence.b ≠ .a := by
  decide +kernel

/-- One Start Rules window of 600,000 ms, the greatest, and one beyond it. -/
def goodEntry : List Byte := [1, 0x09, 0x27, 0xC0]
def badEntry : List Byte := [1, 0x09, 0x27, 0xC1]

theorem wit_TableWriteTaken :
    tableOf (5 : Byte).toNat = some .startRules ∧
    splitEntries .startRules (1 : Byte).toNat goodEntry = some [goodEntry] ∧
    splitEntries .startRules (0 : Byte).toNat [] = some [] ∧
    lane.banks.switchPending = false ∧ (1 : Byte) ≠ 0 ∧ (3 : Byte).toNat + (1 : Byte).toNat ≤ entryCount .startRules ∧
    entryCount .startRules < (4 : Byte).toNat + (1 : Byte).toNat ∧
    writeTable lane.shadow .startRules 3 [badEntry] = .inl 3 ∧
    writeTable lane.shadow .startRules 3 [goodEntry] =
      .inr { lane.shadow with startRules := [none, none, none, some 600000] } := by decide +kernel

theorem wit_TableReadsBackAsWritten :
    bank.directory.length = 16 ∧ bank.channels.length = 64 ∧ bank.calibration.length = 32 ∧
    bank.classes.length = 8 ∧ bank.plans.length = 192 ∧ bank.startRules.length = 4 ∧
    3 + [goodEntry].length ≤ entryCount .startRules ∧
    splitEntries .startRules [goodEntry].length goodEntry = some [goodEntry] ∧
    writeTable bank .startRules 3 [goodEntry] = .inr { bank with startRules := [none, none, none, some 600000] } ∧
    -- the entries beside it and another table
    2 < 3 ∧ 3 + [goodEntry].length ≤ 4 ∧ Table.laneSettings ≠ .startRules := by
  decide +kernel

theorem wit_ReadsAnswered (s : State) :
    (asked [0x02, 1, 5, 0, 4] s).asks (request [0x02, 1, 5, 0, 4]) [0x02, if true then 1 else 0, 5, 0, 4] ∧
    (asked [0x04] s).asks (request [0x04]) [0x04] ∧
    (asked [0x0C, 1, 0, 0] s).asks (request [0x0C, 1, 0, 0]) [0x0C, 1, 0, 0] :=
  ⟨asked_asks _ _, asked_asks _ _, asked_asks _ _⟩

theorem wit_SwitchAppliedAtOnce :
    (asked [0x03, 0x01] lane).asks (request [0x03, 0x01]) [0x03, 0x01] ∧ lane.banks.switchPending = false ∧
    lane.vehicle = none ∧ lane.lane.state = .off ∧ validate lane.shadow = none :=
  ⟨asked_asks _ _, rfl, rfl, rfl, test_bank_is_valid⟩

theorem wit_SwitchWaitsFailsOrIsCancelled :
    (inState .exit lane).vehicle = none ∧ (inState .exit lane).lane.state = .exit ∧ lane.lane.state = .off ∧
    (opened lane).vehicle.isSome = true ∧ validate (opened lane).shadow = none ∧
    validate Bank.empty = some { check := .driveCabinetCount, table := .headDirectory, entry := none } ∧
    ({ lane.banks with switchPending := true } : BankControl).switchPending = true := by decide +kernel

theorem wit_ValidBankPromises : bank.channels.length = 64 ∧ validate bank = none :=
  ⟨by decide +kernel, test_bank_is_valid⟩

theorem wit_GoIdleStartsTheLane :
    lane.banks.valid = true ∧ lane.lane.state = .off ∧ lane.rollers.estop = false ∧ lane.lane.exitWait = false := by
  decide +kernel

theorem wit_GoOffAndGoManual :
    (inState .manual lane).lane.state = .manual ∧ (inState .idle lane).lane.state = .idle ∧ lane.vehicle = none ∧
    lane.lane.exitWait = false := by decide +kernel

theorem wit_EntryTakesTareAndPlate :
    let s := allHold 7 (inState .idle (opened lane))
    s.lane.state = .idle ∧ s.vehicle.isSome = true ∧ s.lane.exitWait = false ∧
    mapped s .brakeForceL = entry 5 2 .brakeForceL .a true ∧ (s.qty .brakeForceL).lastConv = some 7 ∧
    (s.qty .brakeForceL).stale = false ∧ mapped s .pedalForce = none ∧
    (lane.qty .wheelLoadL).lastConv = none := by decide +kernel

/-- The lane in ENTRY with the marker armed and x at every quantity of B; without its plate head where p is false. -/
def armed (p : Bool) (x : Int) : State :=
  let s := setB x (inState .entry (opened lane))
  let heads := bank.directory.map (Option.map fun h => { h with enabled := h.enabled && (p || h.role != .plateHead) })
  { s with lane := { s.lane with autoTest := .armed }, working := { bank with directory := heads } }

/-- With a plate head and without one, in ENTRY and in HALTED; a tick close of A; AXLE_IN first in the plan. -/
theorem wit_EntryTakesTareAndPlate_passage :
    hasPlateHead (armed true 1) = true ∧ hasPlateHead (armed false 1) = false ∧
    delivers (armed false 1) .axlePresentL 1 = true ∧ delivers (armed false 1) .axlePresentR 1 = true ∧
    mapped (armed false 1) .axlePresentL = entry 6 0 .axlePresentL .b ∧
    delivers (armed false 0) .axlePresentL 1 = false ∧ (armed true 1).lane.autoTest = .armed ∧
    lane.lane.autoTest ≠ .armed ∧ (armed true 1).lane.state = .entry ∧ (armed true 1).lane.exitWait = false ∧
    (halted .entry).lane.state = .halted ∧ (halted .entry).lane.remembered = some .entry ∧
    (deliver .b { skipped := false, void := false } ((tickDue .b (armed false 1)).atClose .b)).lane.state ≠ .exit ∧
    (armed true 1).eval.activity ≠ .settling ∧ (armed true 1).vehicle = some vehicle ∧
    (axleSection (armed true 1).working (limits (armed true 1)).plan).head? = planStep .axleIn 60000 .rep ∧
    (planStep .axleIn 60000 .rep).all (runnable vehicle.park 1) = true ∧
    (∀ q ∈ neededBy .axleIn, (mapped (armed true 1) q).isSome = true → ((armed true 1).qty q).stale = false) ∧
    anyOvertemp (armed true 1) = false ∧ (armed true 1).station.tx ≠ .idle ∧
    (∀ q ∈ allQuantities, ((armed true 1).qty q).batch.values = []) := by decide +kernel

/-- R72: without a plate head a close with 1 at both sensors makes the passage; with one it takes a crossing; in
HALTED the marker becomes due. -/
theorem test_automatic_passage :
    let state (s : State) := (s.lane.state, s.lane.autoTest)
    let stopped := { armed false 1 with lane := { (armed false 1).lane with state := .halted, remembered := some .entry } }
    [autoPassage .b false (armed false 1), autoPassage .a false (armed false 1), autoPassage .b true (armed false 0),
      autoPassage .b false (armed true 1), autoPassage .b true (armed true 0), autoPassage .b false stopped].map state =
    [(.testing, .clear), (.entry, .armed), (.entry, .armed), (.entry, .armed), (.testing, .clear), (.halted, .due)] := by
  decide +kernel

theorem wit_GoTestBeginsThePlan :
    let s := inState .entry (opened lane)
    s.lane.state = .entry ∧ s.vehicle = some vehicle ∧
    (axleSection s.working (limits s).plan).head? = planStep .axleIn 60000 .rep ∧
    (planStep .axleIn 60000 .rep).all (runnable vehicle.park 1) = true ∧
    (∀ q ∈ neededBy .axleIn, (mapped s q).isSome = true → (s.qty q).stale = false) ∧ anyOvertemp s = false := by
  decide +kernel

/-- One send of the left side within a window of rule 1. -/
def heldBack (s : State) : State :=
  side { s.roller .left with history := [{ time := 0, aged := false }] }
    { s with working := { bank with startRules := [some 1, none, none, none] } }

/-- R92: both sides STOPPED are REQUESTED and their STARTs queued, L before R. -/
theorem test_spin_begin : (planStep .spin 15000 .rep).map (fun p =>
    let r := beginActions p lane
    (r.1.engine.marks, r.1.head.queue, r.2)) =
      some (⟨.requested, .requested⟩, [startFrame 3 .left, startFrame 3 .right], none) := by decide +kernel

/-- The begins: a step with no cause recorded; sides in every state, with room, without, and blocked. -/
theorem wit_GoTestBeginsThePlan_begins :
    let at_ (x : RollerState) : State := side { RollerSide.reset with state := x } lane
    currentStep (running 2 lane) = planStep .spin 15000 .rep ∧ neededStale (running 2 lane) = false ∧
    anyOvertemp (running 2 lane) = false ∧
    (planStep .spin 15000 .rep).map (·.kind) = some .spin ∧ (planStep .hold 30000 .rep).map (·.kind) = some .hold ∧
    (planStep .stop 10000 .abort).map (·.kind) = some .stop ∧
    [RollerState.stopped, .held, .spinningUp, .running, .coasting].map (fun x => ((at_ x).roller .left).state) =
      [.stopped, .held, .spinningUp, .running, .coasting] ∧
    permitted lane .left = true ∧ permitted (heldBack lane) .left = false ∧ ((heldBack lane).roller .left).state = .stopped ∧
    lane.head.tx ≠ .idle ∧ lane.head.queue.length + 2 ≤ 16 ∧ 16 ≤ (List.replicate 16 sent).length ∧
    lane.rollers.estop = false ∧ ({ RollerSide.reset with overtemp := true } : RollerSide).overtemp = true := by
  decide +kernel

/-- FINISH, step 6, is to be begun, with certificates queued. -/
def finishing (l : List Certificate) : State :=
  let s := inState .testing (running 6 (opened lane))
  { s with engine := { s.engine with axle := 0, phase := .waiting }, certs := { s.certs with queue := l } }

def fourWaiting : List Certificate := [certificate 1, certificate 2, certificate 3, certificate 4]

theorem wit_GoTestBeginsThePlan_finish :
    (finishing []).lane.state = .testing ∧ (finishing []).vehicle = some vehicle ∧
    (finishing []).engine.plan = some 1 ∧ currentStep (finishing []) = planStep .finish 0 .skip ∧
    anyOvertemp (finishing []) = false ∧ (finishing []).certs.queue.length < 4 ∧
    4 ≤ (finishing fourWaiting).certs.queue.length ∧ ((finishing []).roller .left).state = .stopped ∧
    ((finishing []).roller .right).state = .stopped ∧ (finishing []).head.tx ≠ .idle ∧
    (finishing []).head.queue.length + 2 ≤ 16 := by decide +kernel

/-- R81, R96: with a free place FINISH ends in EXIT, its certificate queued; with four queued it waits under CERT_FULL. -/
theorem test_finish_begun :
    [finishing [certificate 8], finishing fourWaiting].map (fun s =>
      let t := startStep .advance s
      (t.lane.state, t.lane.causes.certFull, t.engine.phase, t.certs.queue.length)) =
    [(.exit, false, .none, 2), (.paused, true, .suspendedContinue, 4)] := by decide +kernel

theorem wit_GoPauseSuspends :
    (running 3 lane).engine.phase = .running ∧ lane.lane.exitWait = false ∧
    [0, 1, 2, 3, 4, 5, 6].map (fun i => currentKind (running i lane)) =
      [some .axleIn, some .weigh, some .spin, some .service, some .hold, some .stop, some .finish] := by
  decide +kernel

/-- Step 0 is suspended, to be continued. -/
def waitsToGoOn : State :=
  { inState .paused (running 0 lane) with engine := { (running 0 lane).engine with phase := .suspendedContinue } }

/-- The marker is due in HALTED, and an exit wait is under way there. -/
theorem wit_GoResumeReturns_halted :
    (asked [0x05, 0x08] (halted .entry)).asks (request [0x05, 0x08]) [0x05, 0x08] ∧
    ({ (halted .entry).lane with autoTest := .due } : LaneControl).autoTest = .due ∧
    ({ (halted .entry).lane with exitWait := true } : LaneControl).exitWait = true ∧
    (halted .entry).rollers.estop = false :=
  ⟨asked_asks _ _, rfl, rfl, rfl⟩

theorem wit_GoResumeReturns :
    (inState .pausing lane).lane.state = .pausing ∧
    noCause { lane.lane.causes with station := false, headStale := true } = false ∧
    noCause { lane.lane.causes with station := false } = true ∧
    waitsToGoOn.engine.phase = .suspendedContinue ∧ currentKind waitsToGoOn = some .axleIn ∧
    waitsToGoOn.lane.state = .paused ∧ (halted .entry).lane.remembered = some .entry ∧
    (halted .entry).lane.state = .halted ∧ (halted .entry).rollers.estop = false ∧
    (halted .entry).lane.autoTest ≠ .due ∧
    (halted .exit).lane.remembered = some .exit ∧ (halted .exit).vehicle = none ∧
    (opened (halted .exit)).vehicle.isSome = true ∧ (halted .exit).head.tx ≠ .idle ∧
    (halted .exit).head.queue.length < 16 := by decide +kernel

/-- SERVICE, step 3, is to be restarted with both sides STOPPED: SPIN, step 2, is the last one before it. WEIGH,
step 1, is begun again itself. -/
theorem wit_GoResumeReturns_takeUp :
    let at_ (i : Nat) : State := { running i (opened lane) with
      engine := { (running i lane).engine with phase := .suspendedRestart } }
    (at_ 3).engine.plan = some 1 ∧ (at_ 3).engine.step = some 3 ∧ (at_ 3).vehicle = some vehicle ∧
    currentStep (at_ 3) = planStep .service 30000 .abort ∧ ((at_ 3).roller .left).state ≠ .running ∧
    (axleSection (at_ 3).working 1)[2]? = planStep .spin 15000 .rep ∧
    currentStep (at_ 1) = planStep .weigh 20000 .rep ∧ (at_ 1).engine.phase = .suspendedRestart ∧
    (halted .testing).lane.remembered = some .testing ∧ noCause { lane.lane.causes with estop := false } = true ∧
    (beginStep .restart (at_ 1)).2 = none := by decide +kernel

/-- R80: the restart goes back to SPIN, which waits for the STARTs it asks for. -/
theorem test_restart_goes_back_to_spin :
    let s := { running 3 (opened lane) with engine := { (running 3 lane).engine with phase := .suspendedRestart, attempt := 2 } }
    ((takeUp s).engine.step, (takeUp s).engine.phase, (takeUp s).engine.attempt) = (some 2, .running, 1) := by
  decide +kernel

theorem wit_GoRefusedChangesNothing :
    (asked [0x05, 0x01] lane).asks (request [0x05, 0x01]) [0x05, BitVec.ofNat 8 (goCode .idle)] ∧
    State.reset.banks.valid = false ∧ lane.banks.valid = true ∧
    LaneState.manual ∉ goStates .entry ∧ (opened lane).vehicle.isSome = true ∧ lane.vehicle = none ∧
    ({ lane.rollers with estop := true } : Rollers).estop = true ∧
    ({ lane.lane with exitWait := true } : LaneControl).exitWait = true :=
  ⟨asked_asks _ _, by decide +kernel⟩

/-- Boundary fields of a VEHICLE_OPEN: class 7, 8 axles, 8 park axles, 20 and 16 characters. -/
theorem wit_VehicleOpened :
    (List.replicate 8 (8 : Byte)).length ≤ 8 ∧ (List.replicate 20 (32 : Byte)).length ≤ 20 ∧
    (List.replicate 16 (126 : Byte)).length ≤ 16 ∧ (inState .idle lane).lane.state = .idle ∧ lane.vehicle = none ∧
    lane.lane.state ≠ .idle ∧ (7 : Byte).toNat ≤ 7 ∧ 2 ≤ (8 : Byte).toNat ∧ (8 : Byte).toNat ≤ 8 ∧
    (∀ a ∈ List.replicate 8 (8 : Byte), 1 ≤ a.toNat ∧ a.toNat ≤ (8 : Byte).toNat) ∧
    (∀ b ∈ List.replicate 20 (32 : Byte) ++ List.replicate 16 126, 32 ≤ b.toNat ∧ b.toNat ≤ 126) ∧
    ¬ (8 : Byte).toNat ≤ 7 := by decide +kernel

/-- The lane in EXIT with x at every presence sensor, one clearance before its re-zero period of 2. -/
def leaving (x : Int) : State :=
  let s := setB x (inState .exit lane)
  { s with lane := { s.lane with rezeroCount := 1 },
           working := { bank with settings := bank.settings.map fun y => { y with rezeroPeriod := 2 } } }

theorem wit_VehicleCancelled_none :
    (asked [0x07] lane).asks (request [0x07]) [0x07] ∧ (asked [0x07] lane).vehicle = none := ⟨asked_asks _ _, rfl⟩

theorem wit_VehicleCancelled :
    ((asked [0x07] (opened lane)).asks (request [0x07]) [0x07] ∧ (asked [0x07] (opened lane)).vehicle.isSome = true) ∧
    (leaving 0).lane.state = .exit ∧ (leaving 0).lane.exitWait = false ∧
    (∀ q ∈ ([.axlePresentL, .axlePresentR, .plateOccupied] : List Quantity),
      mapped (leaving 0) q = none ∨ delivers (leaving 0) q 0 = true) ∧
    delivers (leaving 1) .plateOccupied 0 = false ∧ (mapped (leaving 1) .plateOccupied).isSome = true ∧
    (settings (leaving 0)).rezeroPeriod ≤ min ((leaving 0).lane.rezeroCount + 1) 255 ∧
    (opened (leaving 0)).vehicle.isSome = true ∧ (leaving 0).vehicle = none ∧ (leaving 0).head.tx ≠ .idle :=
  ⟨⟨asked_asks _ _, rfl⟩, by decide +kernel⟩

theorem wit_LaneResetLeaves :
    (asked [0x08] lane).asks (request [0x08]) [0x08] ∧ lane.head.tx ≠ .idle ∧ lane.vehicle = none ∧
    (opened lane).vehicle.isSome = true ∧ lane.banks.switchPending = false ∧ lane.station.tx ≠ .idle ∧
    (lane.roller .left).state ≠ .held ∧ (lane.roller .right).state ≠ .held ∧ lane.certs.queue = [] ∧
    ({ lane.certs with queue := [certificate 7] } : CertState).queue = [certificate 7] :=
  ⟨asked_asks _ _, by decide +kernel⟩

theorem wit_CadenceSetTaken :
    (asked (0x09 :: 1 :: word16 200) lane).asks (request (0x09 :: 1 :: word16 200)) (0x09 :: 1 :: word16 200) ∧
    (inState .idle lane).lane.state ≠ .off ∧ lane.lane.state = .off ∧ (2 : Byte).toNat = 2 ∧
    (9 : Word16).toNat < 10 ∧ 1000 < (1001 : Word16).toNat ∧ (0 : Word16).toNat < 1 ∧ 200 < (201 : Word16).toNat ∧
    (1 : Byte).toNat = cadenceCode .b ∧ 1 ≤ (200 : Word16).toNat ∧ (200 : Word16).toNat ≤ 200 ∧
    (lane.cad .b).rate = (20 : Word16).toNat ∧ (lane.cad .b).inc = (2 * (20 * 2 ^ 32) + 10 ^ 6) / (2 * 10 ^ 6) :=
  ⟨asked_asks _ _, by decide +kernel⟩

theorem wit_SyncRequestsIssued :
    (asked [0x0A, 1] lane).asks (request [0x0A, 1]) [0x0A, BitVec.ofNat 8 (syncCode .zero)] ∧
    syncInstr .zero = some .syncRequestZero ∧ (opened lane).vehicle.isSome = true ∧ lane.vehicle = none ∧
    lane.lane.state = .off ∧ (inState .idle lane).lane.state ≠ .off ∧ lane.head.tx ≠ .idle ∧
    lane.head.queue.length < 16 ∧ lane.station.tx ≠ .idle ∧ lane.station.queue.length + 2 ≤ 32 :=
  ⟨asked_asks _ _, by decide +kernel⟩

theorem wit_CountersLatchedAndLogRead (s : State) :
    (asked [0x0B, 1] s).asks (request [0x0B, 1]) [0x0B, if true then 1 else 0] ∧
    (asked [0x0D, 16, 0] s).asks (request [0x0D, 16, 0]) [0x0D, 16, if false then 1 else 0] ∧
    1 ≤ (16 : Byte).toNat ∧ (16 : Byte).toNat ≤ 16 :=
  ⟨asked_asks _ _, asked_asks _ _, by decide, by decide⟩

theorem wit_CertificatesAcknowledged :
    (asked (0x0E :: word32 7) lane).asks (request (0x0E :: word32 7)) (0x0E :: word32 7) ∧
    (asked (0x0F :: word32 7) lane).asks (request (0x0F :: word32 7)) (0x0F :: word32 7) ∧
    lane.certs.queue = [] ∧ lane.vehicle = none ∧ (certificate 7).number = 7 ∧ (certificate 6).number ≠ 7 ∧
    lane.lane.state ≠ .paused ∧ lane.station.tx ≠ .idle ∧ lane.station.queue.length + 2 ≤ 32 ∧
    -- PAUSED under CERT_FULL alone: step 6 is FINISH, its results are there, and four certificates wait
    (let s := { inState .paused (running 6 (opened lane)) with
        engine := { (running 6 lane).engine with phase := .suspendedContinue }
        vehicle := some { vehicle with results := some (evaluate classOne [] false vehicle) } }
     noCause { { PauseCauses.empty with certFull := true } with certFull := false } = true ∧
      s.lane.state = .paused ∧ s.lane.exitWait = false ∧ (s.vehicle.bind (·.results)).isSome = true ∧
      s.engine.phase = .suspendedContinue ∧ currentKind s = some .finish ∧
      [certificate 8, certificate 9, certificate 10].length < 4) :=
  ⟨asked_asks _ _, asked_asks _ _, by decide +kernel⟩

theorem wit_UnknownAndMalformedAnswered (s : State) :
    (asked [] s).asks (request []) [] ∧ (asked [16] s).asks (request [16]) [16] ∧ 15 < (16 : Byte).toNat ∧
    (asked [0x0F, 1, 2, 3] s).asks (request [0x0F, 1, 2, 3]) [0x0F, 1, 2, 3] ∧ [(1 : Byte), 2, 3].length ≠ 4 :=
  ⟨asked_asks _ _, asked_asks _ _, by decide, asked_asks _ _, by decide⟩

/-- The four windows of the start rules are the greatest ones; one send lies in the first. -/
theorem wit_StartPermittedByTheRules :
    ruleWindow { lane with working := { bank with startRules := List.replicate 4 (some 600000) } } 4 ≠ 0 ∧
    permitted lane .left = true := by decide +kernel

/-- A COMMAND of the lane station for the drive cabinet at the front of the station FIFO. -/
def command (code : Byte) : Frame := frame 3 62 kindCommand [code, sideByte .left]
def commanded (code : Byte) (s : State) : State := { s with station := { s.station with fifo := [command code] } }

theorem wit_StationStartJudged :
    (commanded 1 lane).station.fifo.head? = some (command 1) ∧
    isCabinetCommand (commanded 1 lane) (command 1) [0x01, sideByte .left] = true ∧ lane.lane.exitWait = false ∧
    ({ lane.rollers with estop := true } : Rollers).estop = true ∧ lane.rollers.estop = false ∧
    ¬ (lane.lane.state = .manual ∨ lane.lane.state = .testing ∧ runningKind lane .spin = true) ∧
    (inState .manual lane).lane.state = .manual ∧ runningKind (inState .testing (running 2 lane)) .spin = true ∧
    (lane.roller .left).overtemp = false ∧ (lane.roller .left).state = .stopped ∧
    permitted lane .left = true ∧ permitted (heldBack lane) .left = false ∧ lane.head.tx ≠ .idle ∧
    lane.head.queue.length < 16 := by decide +kernel

/-- A START of an idle head port, one of a full one, and STARTs with a side too few, a side too many and no such side. -/
theorem wit_StationStartJudged_forms :
    quiet quietLane .head ∧ permitted quietLane .left = true ∧ 16 ≤ (List.replicate 16 sent).length ∧
    ∀ l ∈ ([[], [2], [0, 0]] : List (List Byte)),
      let f := frame 3 62 kindCommand (1 :: l)
      (atPort .station f lane).station.fifo.head? = some f ∧ isStation f.src = true ∧ f.kind = 0x04 ∧
      isHead f.dst = true ∧ cabinetNode (atPort .station f lane) = some f.dst.toNat ∧
      f.payload.head? = some 0x01 ∧ f.payload ≠ [0x01, sideByte .left] ∧ f.payload ≠ [0x01, sideByte .right] :=
  ⟨quietLane_quiet _, by decide +kernel⟩

/-- STOPs of the same bad forms. -/
theorem wit_StationStopTaken_forms : ∀ l ∈ ([[], [2], [0, 0]] : List (List Byte)),
    let f := frame 3 62 kindCommand (2 :: l)
    (atPort .station f lane).station.fifo.head? = some f ∧ isStation f.src = true ∧ f.kind = 0x04 ∧
    isHead f.dst = true ∧ cabinetNode (atPort .station f lane) = some f.dst.toNat ∧
    f.payload.head? = some 0x02 ∧ f.payload ≠ [0x02, sideByte .left] ∧ f.payload ≠ [0x02, sideByte .right] := by
  decide +kernel

/-- R8: an idle head transmitter takes the START at once. -/
theorem test_start_at_an_idle_port :
    after .stationStart (inState .manual { quietLane with station := (commanded 1 lane).station })
      (fun t => (t.head.tx, t.head.queue, (t.roller .left).state)) =
      some (.taken (startFrame 3 .left), [], .spinningUp) := by decide +kernel

/-- The left side holds a START of the station since lane time 0, to be tested. -/
def holds (s : State) : State :=
  side { RollerSide.reset with state := .held, held := some { origin := .station, since := 0 }, testDue := true } s

theorem wit_StationStopTaken :
    (commanded 2 lane).station.fifo.head? = some (command 2) ∧
    isCabinetCommand (commanded 2 lane) (command 2) [0x02, sideByte .left] = true ∧ lane.lane.exitWait = false ∧
    lane.engine.phase ≠ .running ∧ (lane.roller .left).state = .stopped ∧
    ((holds lane).roller .left).held = some { origin := .station, since := 0 } ∧
    [RollerState.coasting, .running, .spinningUp].map (fun x => ((side { RollerSide.reset with state := x } lane).roller
      .left).state) = [.coasting, .running, .spinningUp] := by decide +kernel

def status (payload : List Byte) : Frame := frame 0 3 kindStatus payload

theorem wit_StatusOfTheDriveCabinet :
    (atPort .head (status [1, 0, 0, 0, 255]) (inState .testing lane)).head.fifo.head? = some (status [1, 0, 0, 0, 255]) ∧
    isCabinetStatus (inState .testing lane) (status [1, 0, 0, 0, 255]) [1, 0, 0, 0, 255] = true ∧ (255 : Byte) ≠ 0 ∧
    lane.rollers.estop = false ∧ (inState .testing lane).lane.state = .testing ∧ isHead (status []).src = true ∧
    (status []).dst = 0 ∧ (status []).kind = 0x03 ∧ cabinetNode lane = some (status []).src.toNat ∧
    (status []).payload.length ≠ 5 ∧
    -- a drive fault: the left side becomes overheated in a test
    isCabinetStatus (inState .testing lane) (status [0, 1, 0, 0, 0]) [0, 1, 0, 0, 0] = true ∧
    (lane.roller .left).overtemp = false ∧ (settings lane).driveFaultEnable = true ∧
    lane.lane.causes.driveFault = false ∧ lane.lane.exitWait = false ∧
    -- a stale head: SERVICE needs the drive speed, WEIGH does not
    (let s := (inState .testing (running 3 (opened lane))).setQty .driveSpeedL { QuantityState.reset with stale := true }
     testUnderWay s = true ∧ (settings s).headStaleEnable = true ∧ s.lane.causes.headStale = false ∧
      currentKind s = some .service ∧ Quantity.driveSpeedL ∈ neededBy .service ∧
      (mapped s .driveSpeedL).isSome = true ∧ (s.qty .driveSpeedL).stale = true ∧
      Quantity.driveSpeedL ∉ neededBy .weigh) := by decide +kernel

/-- A contactor comes on for a STOPPED side, for one with a held START, and for one whose START is on the line. -/
theorem wit_StatusOfTheDriveCabinet_contactor :
    isCabinetStatus lane (status [1, 0, 0, 0, 0]) [1, 0, 0, 0, 0] = true ∧ lane.station.tx ≠ .idle ∧
    quietLane.station.tx = .idle ∧ quietLane.station.queue = [] ∧
    lane.station.queue.length < 32 ∧ ¬ (List.replicate 32 sent).length < 32 ∧
    lane.rollers.estop = decide ((0 : Byte) ≠ 0) ∧ (lane.roller .left).overtemp = decide ((0 : Byte) ≠ 0) ∧
    (lane.roller .left).state = .stopped ∧ (lane.roller .left).outstanding = false ∧
    ((holds lane).roller .left).outstanding = false ∧
    ((holds lane).roller .left).held = some { origin := .station, since := 0 } ∧
    ((side { RollerSide.reset with outstanding := true } lane).roller .left).outstanding = true := by decide +kernel

theorem wit_HeldStartTested :
    ((holds lane).roller .left).state = .held ∧ ((holds lane).roller .left).testDue = true ∧
    permitted (holds lane) .left = true ∧
    originHolds (inState .manual (holds lane)) .station = true ∧ originHolds (holds lane) .station = false ∧
    lane.head.tx ≠ .idle ∧ lane.head.queue.length < 16 ∧ lane.lane.exitWait = false ∧
    lane.engine.phase ≠ .running ∧
    permitted (side { RollerSide.reset with state := .held, history := [{ time := 0, aged := false }] } (heldBack lane))
      .left = false := by decide +kernel

theorem wit_HeldStartTested_idle : quiet (holds quietLane) .head ∧ permitted (holds quietLane) .left = true ∧
    originHolds (inState .manual (holds quietLane)) .station = true :=
  ⟨quietLane_quiet .head, by decide +kernel⟩

theorem wit_SpinUpWindowEnds :
    let s := side { RollerSide.reset with state := .spinningUp, sendTime := some 0 } lane
    (s.roller .left).state = .spinningUp ∧ (s.roller .left).sendTime = some 0 ∧
    ((2999 : Word32) - 0).toNat < (settings s).spinUpWindow ∧ (settings s).spinUpWindow ≤ ((3000 : Word32) - 0).toNat ∧
    s.engine.phase ≠ .running ∧ s.lane.exitWait = false := by decide +kernel

/-- Step i runs with the marks l and r. -/
def marked (i : Nat) (l r : SideMark) : State :=
  { running i lane with engine := { (running i lane).engine with marks := { left := l, right := r } } }

theorem wit_SpinUpWindowEnds_reports :
    currentStep (marked 2 .requested .up) = planStep .spin 15000 .rep ∧
    currentStep (marked 5 .clear .clear) = planStep .stop 10000 .abort ∧
    currentStep (marked 3 .measuring .notRun) = planStep .service 30000 .abort ∧
    (marked 2 .requested .up).engine.phase = .running ∧
    (marked 2 .requested .up).engine.marks.get .left = .requested ∧
    (marked 2 .requested .up).engine.marks.get .right = .up ∧
    (marked 2 .waitingStandstill .up).engine.marks.get .left = .waitingStandstill ∧
    (lane.roller .left).state = .stopped ∧ (lane.roller .right).state = .stopped ∧ lane.rollers.estop = false ∧
    permitted lane .left = true ∧ permitted (heldBack lane) .left = false ∧ lane.head.tx ≠ .idle ∧
    lane.head.queue.length < 16 ∧ ¬ lane.engine.phase = .running ∧
    ({ lane.lane with exitWait := true } : LaneControl).exitWait = true ∧ lane.lane.state ≠ .halted := by
  decide +kernel

/-- The left side is RUNNING and watched, and the set of A gives every quantity x. -/
def watched (x : Int) (w : Option Watch) (s : State) : State :=
  let d : Delivery := { value := some x, conv := some x, clamp := false, cond := .fresh, stale := false }
  side { RollerSide.reset with state := .running, watch := w, increment := 2 ^ 31, window := 255 }
    { opened s with setA := { tick := some 0, records := List.replicate 16 (some d) } }

theorem wit_RunningSideAtClose :
    let w : Watch := { engaged := true, count := 2 }
    ((watched 400 none lane).roller .left).state = .running ∧ ((watched 400 none lane).roller .left).watch = none ∧
    ((watched 400 (some w) lane).roller .left).watch = some w ∧ value (watched 400 none lane) .followPulsesL = some 400 ∧
    -- the slip is 0 at 400 mm/s on both, below the lock slip; a slip kept at 1,000 below the minimum speed locks
    newSlip .left (watched 400 none lane) = 0 ∧ (limits (watched 400 none lane)).lockConfirm ≤ w.count + 1 ∧
    (settings lane).followerCircumference = some 250 ∧ (settings lane).pulsesPerRev = some 40 ∧
    2 ^ 32 ≤ 0 + 2 * 2 ^ 31 ∧
    -- spin-up at 400 mm/s, the minimum, in the last millisecond of the window; standstill at 49 mm/s, not at 50
    (let s := { watched 400 none lane with clock := { lane.clock with laneTime := 2999 } }
     let x : RollerSide := { RollerSide.reset with state := .spinningUp, sendTime := some 0 }
     ((side x s).roller .left).sendTime = some 0 ∧ (s.clock.laneTime - 0).toNat < (settings s).spinUpWindow ∧
      value s (driveSpeed .left) = some 400 ∧ value s (followSpeed .left) = some 400 ∧
      (settings s).minDriveSpeed ≤ 400 ∧ ((400 : Int) * (settings s).spinUpFraction).tdiv 1000 ≤ 400) ∧
    (let s := side { RollerSide.reset with state := .coasting } (watched 49 none lane)
     value s (driveSpeed .left) = some 49 ∧ (49 : Int) < (settings s).standstillSpeed ∧
      ¬ (50 : Int) < (settings s).standstillSpeed ∧ (s.roller .left).contactor = false ∧
      (s.roller .left).outstanding = false ∧ (s.roller .left).state = .coasting) := by decide +kernel

/-- A tick close of A in SERVICE or HOLD with one side watched, and nothing delivered fresh. -/
def closing (i : Nat) (x : RollerSide) : State :=
  { tickDue .a (inState .testing (running i (allHold 999 (side x (opened lane))))) with
    eval := { Evaluator.reset with activity := .force, sides :=
      { left := { EvalSide.reset with phase := .engaged, release := 1 }, right := EvalSide.reset } } }

def lockedSide : RollerSide :=
  { RollerSide.reset with state := .running, watch := some { engaged := true, count := 3 }, slip := 1000 }

def carrySide : RollerSide :=
  { RollerSide.reset with state := .running, watch := some { engaged := false, count := 0 }, window := 1,
                          increment := 2 ^ 32 }

/-- The state in which the consumers take the set. -/
def taking (c : Cadence) (s : State) : State := deliver c { skipped := false, void := false } (s.atClose c)

theorem wit_CloseRowsAreTheirTickIssue :
    -- LOCK: slip kept at 1,000 with the drive below its minimum speed
    (let u := taking .a ((closing 3 lockedSide).setQty .driveSpeedL { QuantityState.reset with lastConv := some 399 })
     u.lane.state ≠ .exit ∧ (u.roller .left).state = .running ∧
      (u.roller .left).watch = some { engaged := true, count := 3 } ∧
      (limits u).lockConfirm ≤ (newWatch .left u (newSlip .left u) { engaged := true, count := 3 }).count) ∧
    -- REVOLUTION_CARRY in HOLD; RELEASE at 999 N and GUIDE_BARS in SERVICE
    (let u := taking .a (closing 4 carrySide)
     (newWatch .left u (newSlip .left u) { engaged := false, count := 0 }).count < (limits u).lockConfirm ∧
      runningKind u .hold = true ∧ (u.roller .left).window ≠ 0 ∧ 2 ^ 32 ≤ pulseSum .left u) ∧
    (let s := closing 3 RollerSide.reset
     let u := taking .a { s with engine := { s.engine with barPhase := 9 } }
     measuringRuns u = true ∧ u.eval.activity = .force ∧ (u.eval.sides.get .left).phase = .engaged ∧
      (sideClose .left u).2.2.lock = false ∧ value u (brakeForce .left) = some 999 ∧
      (999 : Int) < (limits u).releaseForce ∧ (limits u).releaseConfirm ≤ (u.eval.sides.get .left).release + 1 ∧
      (settings u).barInterval ≤ u.engine.barPhase + 1) ∧
    -- PRESENCE_COUNT_REACHED at the fifth close in a row
    (let s := tickDue .b (inState .testing (running 0 (allHold 1 (opened lane))))
     let u := taking .b { s with engine := { s.engine with presence := 4 } }
     u.lane.state ≠ .exit ∧ u.eval.activity ≠ .settling ∧ u.engine.phase = .running ∧ 4 ≤ u.engine.presence ∧
      currentKind u = some .axleIn ∧ deliversIfMapped u .axlePresentL 1 = true ∧
      deliversIfMapped u .axlePresentR 1 = true) := by decide +kernel

/-- AXLE_IN with 1 and 0 at the sensors; SERVICE with the bar phase one below the interval and at it. -/
theorem wit_CloseRowsAreTheirTickIssue_closes :
    let s := setB 1 (running 0 lane)
    s.engine.phase = .running ∧ currentKind s = some .axleIn ∧ s.engine.presence < 4 ∧ s.eval.activity ≠ .settling ∧
    (∀ q ∈ ([.axlePresentL, .axlePresentR] : List Quantity), mapped s q = none ∨ delivers s q 1 = true) ∧
    delivers (setB 0 s) .axlePresentL 1 = false ∧ (mapped s .axlePresentL).isSome = true ∧
    measuringRuns (running 3 lane) = true ∧ measuringRuns s = false ∧ 8 + 1 < (settings lane).barInterval ∧
    9 + 1 = (settings lane).barInterval ∧ lane.head.tx ≠ .idle := by decide +kernel

theorem wit_StepTimeoutRepeats :
    let s := inState .testing (running 0 (ran 60000 (opened lane)))
    currentStep s = planStep .axleIn 60000 .rep ∧ (running 0 (ran 59999 lane)).engine.elapsed < 60000 ∧
    60000 ≤ s.engine.elapsed ∧ s.engine.phase = .running ∧ s.engine.attempt - 1 < 2 ∧ s.lane.state = .testing ∧
    s.vehicle = some vehicle ∧ anyOvertemp s = false ∧
    (∀ q ∈ neededBy .axleIn, (mapped s q).isSome = true → (s.qty q).stale = false) := by decide +kernel

/-- Every action; a step that ends OK or SKIPPED in PAUSING and TESTING, followed by WEIGH, step 1. -/
theorem wit_StepTimeoutRepeats_next :
    let s := running 0 (opened lane)
    currentStep s = planStep .axleIn 60000 .rep ∧ s.engine.plan = some 1 ∧ s.engine.step = some 0 ∧
    s.vehicle = some vehicle ∧ completed.outcome = .ok ∧
    findStep (axleSection s.working 1) vehicle.park vehicle.n 1 1 = (1, 1) ∧
    (axleSection s.working 1)[1]? = planStep .weigh 20000 .rep ∧ anyOvertemp s = false ∧
    (∀ q ∈ neededBy .weigh, (mapped s q).isSome = true → (s.qty q).stale = false) := by decide +kernel

/-- R86 with a PARK step for park axles alone and two axles, of which the second is one: the next step in the pass,
in the next pass, and FINISH. -/
theorem test_findStep :
    let axleIn := (planStep .axleIn 0 .rep).toList
    let park := (planStep .park 0 .rep).toList.map fun p => { p with parkOnly := true }
    let sec := park ++ axleIn
    [findStep sec [2] 2 1 0, findStep sec [2] 2 1 2, findStep sec [2] 2 2 1, findStep sec [2] 2 2 2,
      findStep park [2] 2 1 0, findStep park [] 2 1 0] = [(1, 1), (2, 0), (2, 1), (0, 2), (2, 0), (0, 1)] := by
  decide +kernel

theorem wit_StepTimeoutAborts :
    let s := inState .pausing (running 3 (ran 30000 (opened lane)))
    currentStep s = planStep .service 30000 .abort ∧ 30000 ≤ s.engine.elapsed ∧ s.engine.phase = .running ∧
    s.lane.state = .pausing ∧ s.vehicle = some vehicle ∧
    -- REPEAT with a repeat limit of 2 at the third attempt
    (planStep .axleIn 60000 .rep).map (fun p => (p.action, decide (p.repeatLimit ≤ 3 - 1))) = some (.rep, true) := by
  decide +kernel

theorem wit_HistoryAgesAndGuidanceWaits :
    let g : GuideMessage := { message := 250, axle := 0, fields := none }
    ({ lane.engine with pendingGuide := some g } : EngineState).pendingGuide = some g ∧ lane.head.tx ≠ .idle := by
  decide +kernel

theorem wit_HistoryAgesAndGuidanceWaits_idle : quiet quietLane .head := quietLane_quiet _

/-- The state of a FORCE or HOLD measurement with the left side ENGAGED and the set of A giving every quantity x. -/
def measuring (i : Nat) (a : Activity) (x : Int) (y : EvalSide) : State :=
  { running i (watched x none lane) with
    engine := { (running i lane).engine with marks := { left := .measuring, right := .notRun } }
    eval := { Evaluator.reset with activity := a, sides := { left := { y with phase := .engaged }, right := y } } }

theorem wit_MeasurementAtClose :
    -- WEIGH: a settle count of 16, an absent load and two loads
    1 ≤ (settings lane).settleCount ∧ value lane .wheelLoadL = none ∧
    (let s := setB 500 { lane with working := { bank with channels :=
        [entry 6 0 .wheelLoadL .b, entry 6 1 .wheelLoadR .b] ++ List.replicate 62 none } }
     value s .wheelLoadL = some 500 ∧ value s .wheelLoadR = some 500) ∧
    -- FORCE at the engage force, 2,000 N, and at 999 N below the release force at the confirm count of 2
    (let s := measuring 3 .force 2000 EvalSide.reset
     s.eval.activity = .force ∧ (s.eval.sides.get .left).phase = .engaged ∧ (s.eval.sides.get .right).phase = .idle ∧
      value s (brakeForce .left) = some 2000 ∧ (limits s).engageForce ≤ 2000 ∧ runningKind s .service = true ∧
      (999 : Int) < (limits s).releaseForce ∧ (limits s).releaseConfirm ≤ 1 + 1) ∧
    -- HOLD: window 2 ends with extremes, no window of the class evaluated yet
    (let s := measuring 4 .hold 3000 { EvalSide.reset with extremes := some (3500, 2900) }
     s.eval.activity = .hold ∧ (s.eval.sides.get .left).extremes = some (3500, 2900) ∧
      0 < ({ classOne with ovalityWindows := 1 } : ClassLimits).ovalityWindows ∧ (1 : Nat) < 2 ∧
      ({ SideTrace.none with window := some (2, true) } : SideTrace).window = some (2, true)) ∧
    -- a step that ends: SERVICE, whose left side is MEASURING, of axle 1
    (let s := measuring 3 .force 2000 EvalSide.reset
     currentKind s = some .service ∧ s.vehicle = some vehicle ∧ 1 ≤ s.engine.axle ∧
      vehicle.axles[s.engine.axle - 1]? = some AxleEntry.empty ∧ s.engine.marks.get .left = .measuring) := by
  decide +kernel

/-- A record whose items are all not applicable; one with a failed service ratio. -/
theorem wit_OverallVerdictDecided :
    let items (r : VehicleResults) := r.serviceVerdict :: r.parkVerdict :: r.axles.flatMap fun a =>
      [a.imbalanceVerdict, a.ovalityVerdict.left, a.ovalityVerdict.right, a.sideSlipVerdict]
    let service := (planStep .service 0 .skip).toList
    let weighed : AxleEntry :=
      { AxleEntry.empty with
        loads := some ⟨⟨1000, false⟩, ⟨1000, false⟩⟩
        service := ⟨some ⟨some 1, .released, none, false⟩, some ⟨some 1, .released, none, false⟩⟩ }
    Verdict.fail ∉ items (evaluate classOne [] false vehicle) ∧
    Verdict.notEvaluated ∉ items (evaluate classOne [] false vehicle) ∧ vehicle.aborted = false ∧
    Verdict.fail ∉ items (evaluate classOne service false vehicle) ∧
    Verdict.notEvaluated ∈ items (evaluate classOne service false vehicle) ∧
    Verdict.fail ∈ items (evaluate classOne service false { vehicle with axles := [weighed, weighed] }) ∧
    ({ vehicle with aborted := true } : VehicleRecord).aborted = true := by decide +kernel

/-- Items that apply and do not: SERVICE in the plan, no PARK; a record with a load, peaks and an ovality of 100. -/
theorem wit_OverallVerdictDecided_items :
    let service := (planStep .service 0 .skip).toList
    let hold := (planStep .hold 0 .skip).toList
    let e : AxleEntry :=
      { AxleEntry.empty with
        imbalance := some 300
        hold := ⟨some { ovality := some 100, ending := .windows, windows := 2, stale := false }, none⟩ }
    (∃ p ∈ service, p.kind = .service) ∧ (∀ p ∈ hold, p.kind ≠ .service) ∧ vehicle.park ≠ [] ∧
    e.imbalance = some 300 ∧ (e.hold.get .left).bind (·.ovality) = some 100 ∧
    (e.hold.get .right).bind (·.ovality) = none ∧ AxleEntry.empty.plate = none ∧
    (opened (running 6 lane)).vehicle = some vehicle ∧ (running 6 lane).engine.plan = some 1 := by decide +kernel

theorem wit_RatiosFromTheRecord :
    let e : AxleEntry :=
      { AxleEntry.empty with
        loads := some ⟨⟨1000, false⟩, ⟨1000, false⟩⟩
        service := ⟨some ⟨some 300, .released, none, false⟩, some ⟨some 200, .released, none, false⟩⟩
        park := ⟨some ⟨some 20, .released, false⟩, some ⟨some 30, .released, false⟩⟩ }
    let v := { vehicle with axles := [e, e] }
    v.axles.map (fun e => (servicePeak e.service .left, servicePeak e.service .right)) =
      [(300, 200), (300, 200)].map (fun p => (some p.1, some p.2)) ∧
    v.axles.map (fun e => e.loads.map fun w => (w.left.value, w.right.value)) = [(1000, 1000), (1000, 1000)].map some ∧
    v.park ≠ [] ∧
    (v.park.filterMap fun a => v.axles[a - 1]?).map (fun e => (parkPeak e.park .left, parkPeak e.park .right)) =
      [(20, 30)].map (fun p => (some p.1, some p.2)) ∧
    (∃ e ∈ vehicle.axles, e.loads = none) ∧
    (∃ a ∈ vehicle.park, ∃ e, vehicle.axles[a - 1]? = some e ∧ parkPeak e.park .left = none) ∧
    ({ vehicle with park := [] } : VehicleRecord).park = [] := by
  decide +kernel

/-- Boundary speeds and lengths of R152 with the power-on settings. -/
theorem wit_CrossingOutcome :
    1 ≤ LaneSettings.powerOn.plateMinTravel ∧
    (599 : Int) < LaneSettings.powerOn.plateMinTravel ∧ LaneSettings.powerOn.plateMinTravel ≤ 600 ∧
    ((600 : Int) * 1000).tdiv 2143 < LaneSettings.powerOn.speedLow ∧
    LaneSettings.powerOn.speedLow ≤ ((600 : Int) * 1000).tdiv 2142 ∧
    ((600 : Int) * 1000).tdiv 271 ≤ LaneSettings.powerOn.speedHigh ∧
    LaneSettings.powerOn.speedHigh < ((600 : Int) * 1000).tdiv 270 ∧
    ((59999 : Int) * 100).tdiv 600 = 9999 ∧ (9999 : Int) < ((60000 : Int) * 100).tdiv 600 := by decide +kernel

/-- An open crossing with the plate clear at the last close. -/
def crossing (p : PlateUnit) : State := setB 0 { opened lane with plate := { p with detection := .opened } }

theorem wit_CrossingAttributed :
    let s := crossing PlateUnit.reset
    let p : PlatePoint := { time := 0, lateral := some 0, travel := some 0 }
    s.plate.detection = .opened ∧ delivers s .plateOccupied 0 = true ∧ delivers s .plateOccupied 1 = false ∧
    s.vehicle = some vehicle ∧ (crossingOf (settings s) s.plate).outcome ≠ .reverse ∧ s.plate.axleCount < vehicle.n ∧
    vehicle.n ≤ (crossing { PlateUnit.reset with axleCount := 2 }).plate.axleCount ∧
    (crossingOf (settings s) { PlateUnit.reset with start := some p, last := some p }).outcome = .reverse ∧
    -- the other detections, and 1, 0 and neither at an open crossing
    PlateUnit.reset.detection = .off ∧ delivers (setB 1 lane) .plateOccupied 1 = true ∧
    delivers (setB 1 lane) .plateOccupied 0 = false ∧ delivers lane .plateOccupied 1 = false ∧
    delivers lane .plateOccupied 0 = false ∧
    ({ PlateUnit.reset with start := some p, last := some p } : PlateUnit).start = some p := by
  decide +kernel

theorem wit_SegmentsRebuildTheRecord :
    4 ≤ [certificate 1, certificate 2, certificate 3, certificate 4].length ∧ lane.certs.queue.length < 4 ∧
    vehicle.axles.length = (evaluate classOne [] false vehicle).axles.length ∧
    (certRecord (certificate 7)).length ≤ 448 ∧
    (certRecord { certificate 7 with ident := List.replicate 20 65, lines := (certificate 7).lines }).length ≤ 448 ∧
    ((segments (certificate 7))[0]?).isSome = true := by decide +kernel

theorem wit_CertificateSent :
    let s := { lane with certs := { lane.certs with queue := [certificate 7], due := true } }
    let t := { lane with certs := { lane.certs with queue := [certificate 7], lastSend := some 0 } }
    s.certs.queue = [certificate 7] ∧ s.certs.due = true ∧ s.station.tx ≠ .idle ∧
    s.station.queue.length + (segments (certificate 7)).length ≤ 32 ∧
    32 < (List.replicate 32 sent).length + (segments (certificate 7)).length ∧ t.certs.due = false ∧
    t.certs.lastSend = some 0 ∧ 10000 ≤ ((10000 : Word32) - 0).toNat ∧ ((9999 : Word32) - 0).toNat < 10000 := by
  decide +kernel

theorem wit_CertificateSent_idle :
    quiet quietLane .station ∧ (segments (certificate 7)).length = 1 :=
  ⟨quietLane_quiet _, by decide +kernel⟩

theorem wit_LaneMillisecondCounts :
    ({ lane.clock with msDue := true } : Clock).msDue = true ∧ lane.clock.msDue = false := by decide +kernel

theorem wit_ReferenceStepAdvances :
    let s := { lane with clock := { lane.clock with micro := 999 } }
    s.cadA.carryDue = false ∧ s.cadB.carryDue = false ∧ s.clock.msDue = false ∧ s.clock.micro ≠ 0 ∧
    s.engine.pendingGuide = none ∧ s.certs.due = false ∧ (s.cad .a).running = false ∧
    ((tickDue .b s).cad .b).running = true := by decide +kernel

/-- The premises of the invariants, with a step that answers a next state. -/
theorem wit_invariants :
    (estopSafe lane ∧ portsFit lane ∧ placesDiffer lane ∧ logsFit lane ∧ timesAgree (opened lane) ∧
      idleWaitsForNothing quietLane) ∧
    step { lane with pending := [.referenceStep] } = exec .referenceStep lane := by
  refine ⟨⟨?_, ?_, ?_, lane_logsFit, ?_, fun p _ => (quietLane_quiet p).2⟩, rfl⟩
  · exact fun _ => ⟨rfl, rfl⟩
  · exact ⟨by decide, by decide, by decide, by decide⟩
  · exact fun a b h => nomatch h
  · exact fun v h => by cases h; rfl

end Sys2Proof.Tests
end

section
/-! What stopping a side replaces, said once for each way in which the supervisor stops it. -/

namespace Sys2Proof.Machine

/-- A side after the supervisor stopped it: STOPPED or COASTING, its watch off or as it was, and its history and the
drive cabinet's flags as they were. -/
structure StoppedFrom (a b : RollerSide) : Prop where
  still : b.still = true
  watch : b.watch = none ∨ b.watch = a.watch
  history : b.history = a.history
  contactor : b.contactor = a.contactor
  overtemp : b.overtemp = a.overtemp

theorem StoppedFrom.trans {a b c : RollerSide} (h : StoppedFrom a b) (k : StoppedFrom b c) : StoppedFrom a c :=
  ⟨k.still, k.watch.elim .inl fun e => e ▸ h.watch, k.history.trans h.history, k.contactor.trans h.contactor,
    k.overtemp.trans h.overtemp⟩

/-- The state with what stopping a side replaces: the head port and its urgent places, the station port with its
transmit overrun count, and the side. -/
def State.stopping (s : State) (sd : Side) (x : PortState) (u v : Option WaitingStop) (y : PortState) (n : Word32)
    (r : RollerSide) : State :=
  { s with head := x, urgent := u, headPlace := v, station := y, live := overrunCount s.live .station n,
           rollers := { s.rollers with sides := s.rollers.sides.set sd r } }

theorem setRoller_eq_stopping (s : State) (sd : Side) (r : RollerSide) : s.setRoller sd r =
    s.stopping sd s.head s.urgent s.headPlace s.station s.live.station.txOverrun r := rfl

theorem stopping_roller (s : State) (sd : Side) (x y : PortState) (u v : Option WaitingStop) (n : Word32)
    (r : RollerSide) : (s.stopping sd x u v y n r).roller sd = r := Pair.get_set _ _ _

theorem stopping_setRoller (s : State) (sd : Side) (x y : PortState) (u v : Option WaitingStop) (n : Word32)
    (r q : RollerSide) : (s.stopping sd x u v y n r).setRoller sd q = s.stopping sd x u v y n q := by
  cases sd <;> rfl

/-- A cancelled START replaces the side, and its notice the station port. -/
theorem cancelHeld_only (sd : Side) (why : PolicyReason) (st : RollerState) (s : State) :
    ∃ y n, cancelHeld sd why st s =
      s.stopping sd s.head s.urgent s.headPlace y n ((s.roller sd).unheld st) := by
  obtain ⟨y, n, e, -⟩ := policyNotice_only sd ((s.roller sd).held.elim .station (·.origin)) .cancelled (some why)
    (s.setRoller sd ((s.roller sd).unheld st))
  exact ⟨y, n, e⟩

/-- An offered STOP replaces the head port, its urgent places and the side's outstanding mark. -/
theorem offerStop_stopping (sd : Side) (s : State) :
    ∃ x u v b, (offerStop sd s).1 = s.stopping sd x u v s.station s.live.station.txOverrun
      { s.roller sd with outstanding := b } := by
  obtain ⟨x, u, v, b, e, -⟩ := offerStop_only sd s
  exact ⟨x, u, v, b, e⟩

/-- The side as a STOP that was offered for it leaves it. -/
theorem stopAs_stopped {st : RollerState} (h : st = .stopped ∨ st = .coasting) (r : RollerSide) (b : Bool) :
    StoppedFrom r ({ r with outstanding := b }.stopAs st) := ⟨stopAs_still h, .inl rfl, rfl, rfl, rfl⟩

theorem stopSpinUp_stopping (sd : Side) (s : State) :
    ∃ x u v b, (stopSpinUp sd s).1 = s.stopping sd x u v s.station s.live.station.txOverrun
      ({ s.roller sd with outstanding := b }.stopAs (if startQueued sd s then .stopped else .coasting)) := by
  obtain ⟨x, u, v, b, e⟩ := offerStop_stopping sd s
  refine ⟨x, u, v, b, ?_⟩
  simp only [stopSpinUp, e, stopping_roller, stopping_setRoller]
  rfl

theorem stopRunning_stopping (sd : Side) (s : State) :
    ∃ x u v b, stopRunning sd s = s.stopping sd x u v s.station s.live.station.txOverrun
      ({ s.roller sd with outstanding := b }.stopAs .coasting) := by
  obtain ⟨x, u, v, b, e⟩ := offerStop_stopping sd s
  refine ⟨x, u, v, b, ?_⟩
  simp only [stopRunning, e, stopping_roller, stopping_setRoller]

/-- A stop request of the lane leaves the side STOPPED or COASTING (R112). -/
theorem laneStop_only (sd : Side) (s : State) :
    ∃ x u v y n r, (laneStop sd s).1 = s.stopping sd x u v y n r ∧ StoppedFrom (s.roller sd) r := by
  unfold laneStop
  split
  next h =>
    exact ⟨_, _, _, _, _, s.roller sd, (setRoller_roller s sd).symm.trans (setRoller_eq_stopping _ _ _),
      by simp [RollerSide.still, h], .inr rfl, rfl, rfl, rfl⟩
  next h =>
    obtain ⟨y, n, e⟩ := cancelHeld_only sd .lane .stopped s
    exact ⟨_, _, _, _, _, _, e, rfl, .inr rfl, rfl, rfl, rfl⟩
  next h =>
    obtain ⟨x, u, v, b, e⟩ := stopSpinUp_stopping sd s
    exact ⟨x, u, v, _, _, _, e, stopAs_stopped (by split <;> simp) _ b⟩
  next h =>
    obtain ⟨x, u, v, b, e⟩ := stopRunning_stopping sd s
    exact ⟨x, u, v, _, _, _, e, stopAs_stopped (.inr rfl) _ b⟩
  next h =>
    obtain ⟨x, u, v, b, e⟩ := offerStop_stopping sd s
    exact ⟨x, u, v, _, _, _, e, by simp [RollerSide.still, h], .inr rfl, rfl, rfl, rfl⟩

/-- The state with what stopping both sides replaces. -/
def State.stoppingBoth (s : State) (x : PortState) (u v : Option WaitingStop) (y : PortState) (n : Word32)
    (l r : RollerSide) : State :=
  { s with head := x, urgent := u, headPlace := v, station := y, live := overrunCount s.live .station n,
           rollers := { s.rollers with sides := { left := l, right := r } } }

/-- The lane's stop request for both sides leaves neither started nor held (R113). -/
theorem laneStopBoth_only (s : State) :
    ∃ x u v y n l r, (laneStopBoth s).1 = s.stoppingBoth x u v y n l r ∧
      StoppedFrom (s.roller .left) l ∧ StoppedFrom (s.roller .right) r := by
  obtain ⟨x, u, v, y, n, l, el, hl⟩ := laneStop_only .left s
  obtain ⟨x', u', v', y', n', r, er, hr⟩ := laneStop_only .right (laneStop .left s).1
  refine ⟨x', u', v', y', n', l, r, ?_, hl, ?_⟩
  · show (laneStop .right (laneStop .left s).1).1 = _
    rw [el] at er ⊢
    exact er
  · rw [el] at hr
    exact hr

/-- A side at an emergency stop is STOPPED or COASTING, with its watch off (R120). -/
theorem estopSide_only (sd : Side) (b : Bool) (s : State) :
    ∃ y n r, estopSide sd b s = s.stopping sd s.head s.urgent s.headPlace y n r ∧
      StoppedFrom (s.roller sd) r ∧ r.watch = none := by
  unfold estopSide
  split
  next h =>
    obtain ⟨y, n, e⟩ := cancelHeld_only sd .estop .stopped (s.setRoller sd (s.roller sd).watchOff)
    refine ⟨y, n, (s.roller sd).watchOff.unheld .stopped, ?_, ⟨rfl, .inl rfl, rfl, rfl, rfl⟩, rfl⟩
    rw [e, roller_setRoller]
    cases sd <;> rfl
  next h => exact ⟨_, _, _, setRoller_eq_stopping _ _ _, stopAs_stopped (by cases b <;> simp) _ _, rfl⟩
  next h => exact ⟨_, _, _, setRoller_eq_stopping _ _ _, stopAs_stopped (.inr rfl) _ _, rfl⟩
  all_goals next h =>
    exact ⟨_, _, _, setRoller_eq_stopping _ _ _,
      ⟨by simp [RollerSide.still, RollerSide.watchOff, h], .inl rfl, rfl, rfl, rfl⟩, rfl⟩

/-- An emergency stop sets the flag and leaves no side started or held, and no watch on (R120). -/
theorem estopRollers_only (s : State) :
    ∃ x u v y n l r, estopRollers s =
        State.stoppingBoth { s with rollers := { s.rollers with estop := true } } x u v y n l r ∧
      StoppedFrom (s.roller .left) l ∧ StoppedFrom (s.roller .right) r ∧ l.watch = none ∧ r.watch = none := by
  unfold estopRollers
  dsimp only
  generalize hs : ({ s with rollers := { s.rollers with estop := true } } : State) = s0
  obtain ⟨x, u, v, b, e⟩ := offerStop_stopping .left s0
  obtain ⟨x', u', v', b', e'⟩ := offerStop_stopping .right (offerStop .left s0).1
  generalize (offerStop .left s0).2 = lf
  generalize (offerStop .right (offerStop .left s0).1).2 = rf
  obtain ⟨y, n, l, el, hl, wl⟩ := estopSide_only .left lf (offerStop .right (offerStop .left s0).1).1
  obtain ⟨y', n', r, er, hr, wr⟩ := estopSide_only .right rf
    (estopSide .left lf (offerStop .right (offerStop .left s0).1).1)
  rw [el] at er hr
  rw [e', e] at er hl hr
  subst hs
  refine ⟨x', u', v', y', n', l, r, ?_, ?_, ?_, wl, wr⟩
  · rw [el, e', e]
    exact er
  · exact ⟨hl.still, .inl wl, hl.history, hl.contactor, hl.overtemp⟩
  · exact ⟨hr.still, .inl wr, hr.history, hr.contactor, hr.overtemp⟩

end Sys2Proof.Machine
end

section
/-! What every command keeps of the promises of Safety.lean (`Kept`), one lemma for each of its operations that
Laws/Along.lean does not cover, and the obligations that follow. -/

namespace Sys2Proof.Machine

/-- What every command keeps of the promises of Safety.lean, between the state before it and the state after it. -/
structure Kept (s t : State) : Prop where
  ports : portsFit s → portsFit t
  places : placesDiffer s → placesDiffer t
  idle : idleWaitsForNothing s → idleWaitsForNothing t
  logs : logsFit s → logsFit t
  safe : estopSafe s → estopSafe t
  agree : timesAgree s → timesAgree t

theorem Kept.refl (s : State) : Kept s s := ⟨id, id, id, id, id, id⟩

theorem Kept.trans {s t u : State} (h : Kept s t) (k : Kept t u) : Kept s u :=
  ⟨k.ports ∘ h.ports, k.places ∘ h.places, k.idle ∘ h.idle, k.logs ∘ h.logs, k.safe ∘ h.safe, k.agree ∘ h.agree⟩

theorem Kept.ite {s t u : State} {p : Prop} [Decidable p] (h : Kept s t) (k : Kept s u) :
    Kept s (if p then t else u) := by split <;> assumption

/-- The work within an event keeps every promise. -/
theorem Along.kept {s t : State} (h : Along s t) : Kept s t where
  ports := fun ⟨a, b, c, d⟩ =>
    ⟨h.head.fifo ▸ a, h.station.fifo ▸ b, h.head.fits c, h.station.fits d⟩
  places := h.places
  idle := h.wakes
  logs := fun ⟨a, b, c, d, e, f⟩ =>
    have ⟨a', b', c', f'⟩ := h.stores ⟨a, b, c, f⟩
    have hl : t.rollers.sides.left.history.length ≤ 4 := (congrArg List.length (h.history .left)).trans_le d
    have hr : t.rollers.sides.right.history.length ≤ 4 := (congrArg List.length (h.history .right)).trans_le e
    ⟨a', b', c', hl, hr, f'⟩
  safe := h.safe
  agree := h.agree

/-! ### Kinds of update -/

/-- An update of parts that no promise looks at. -/
theorem Kept.inert (s : State) (cadA cadB : CadenceState) (setA setB : TickSet) (working shadow : Bank)
    (banks : BankControl) (lane : LaneControl) (engine : EngineState) (eval : Evaluator) (plate : PlateUnit)
    (live latched : Counters) (latchTime : Option Word32) (pending : List Instr) :
    Kept s { s with cadA, cadB, setA, setB, working, shadow, banks, lane, engine, eval, plate, live, latched,
                    latchTime, pending } := ⟨id, id, id, id, id, id⟩

/-- A port replaced by one that holds no more than its capacities, and idles only where it did. -/
theorem Kept.toPort {s : State} {p : Port} {x : PortState}
    (hf : (s.port p).fifo.length ≤ fifoCap p → x.fifo.length ≤ fifoCap p) (hq : x.queue = (s.port p).queue)
    (hi : x.tx = .idle → (s.port p).tx = .idle) : Kept s (s.setPort p x) := by
  refine ⟨fun ⟨a, b, c, d⟩ => ?_, ?_, fun h p' => ?_, ?_, ?_, ?_⟩
  · cases p
    · exact ⟨hf a, b, (congrArg List.length hq).trans_le c, d⟩
    · exact ⟨a, hf b, c, (congrArg List.length hq).trans_le d⟩
  · cases p <;> exact id
  · cases p <;> cases p'
    · exact fun e => ⟨hq.trans (h .head (hi e)).1, (h .head (hi e)).2⟩
    · exact h .station
    · exact h .head
    · exact fun e => hq.trans (h .station (hi e))
  all_goals cases p <;> exact id

/-- The quantities replaced, none lost. -/
theorem Kept.toQuantities {s : State} {qs : List QuantityState} (h : qs.length = s.quantities.length) :
    Kept s { s with quantities := qs } := (Along.toQuantities s.live h).kept

/-- A side replaced, its history within its bound and started under no emergency stop. -/
theorem Kept.toRoller {s : State} {sd : Side} {r : RollerSide}
    (hh : (s.roller sd).history.length ≤ 4 → r.history.length ≤ 4)
    (hs : s.rollers.estop = true → (s.roller sd).still = true → r.still = true) : Kept s (s.setRoller sd r) where
  ports := id
  places := id
  idle := id
  logs := fun ⟨a, b, c, d, e, f⟩ => by
    cases sd
    · exact ⟨a, b, c, hh d, e, f⟩
    · exact ⟨a, b, c, d, hh e, f⟩
  safe := fun h e => by
    cases sd
    · exact ⟨hs e (h e).1, (h e).2⟩
    · exact ⟨(h e).1, hs e (h e).2⟩
  agree := id

theorem countPort_kept (p : Port) (f : PortCounts → PortCounts) (s : State) : Kept s (s.countPort p f) :=
  (countPort_along p f s).kept
theorem count_kept (f : Counters → Counters) (s : State) : Kept s (s.count f) := (count_along f s).kept
theorem reply_kept (n : Nat) (a b : Byte) (l : List Byte) (s : State) : Kept s (reply n a b l s) :=
  (reply_along n a b l s).kept
theorem malformed_kept (n : Nat) (c : Byte) (s : State) : Kept s (malformed n c s) := reply_kept _ _ _ _ s
theorem outOfRange_kept (n : Nat) (c : Byte) (s : State) : Kept s (outOfRange n c s) := reply_kept _ _ _ _ s
theorem setCad_kept (c : Cadence) (x : CadenceState) (s : State) : Kept s (s.setCad c x) := by
  cases c <;> exact Kept.inert s _ _ _ _ _ _ _ _ _ _ _ _ _ _ _

theorem cadences_kept (a b : CadenceState) (s : State) : Kept s { s with cadA := a, cadB := b } :=
  Kept.inert s _ _ _ _ _ _ _ _ _ _ _ _ _ _ _

/-! ### Ports -/

/-- Settles O3: every part of the reset state is empty, idle or 0. -/
theorem resetKeepsPromises : Obligations.ResetKeepsPromises := by
  unfold Obligations.ResetKeepsPromises
  refine ⟨fun h => (nomatch h), fun _ _ h => (nomatch h), ?_, ?_, fun _ h => (nomatch h), fun p _ => ?_⟩
  · exact ⟨by decide, by decide, by decide, by decide⟩
  · exact ⟨by decide, by decide, by decide, by decide, by decide, by decide⟩
  · cases p
    · exact ⟨rfl, rfl, rfl⟩
    · rfl

theorem powerOnReset_kept (s : State) : Kept s { State.reset with pending := s.pending } := by
  obtain ⟨safe, places, ports, logs, agree, idle⟩ := resetKeepsPromises
  exact ⟨fun _ => ports, fun _ => places, fun _ => idle, fun _ => logs, fun _ => safe, fun _ => agree⟩

theorem receive_kept (p : Port) (f : Frame) (s : State) : Kept s (receive p f s) := by
  unfold receive
  split
  next h =>
    exact Kept.toPort (fun _ => by simpa using h) rfl id
  · exact countPort_kept _ _ s

theorem setRx_kept (p : Port) (rx : RxState) (s : State) : Kept s (s.setPort p { s.port p with rx }) :=
  Kept.toPort id rfl id

theorem endReception_kept (p : Port) (line : List Byte) (s : State) : Kept s (endReception p line s) := by
  unfold endReception
  split
  · exact (setRx_kept p _ s).trans (countPort_kept _ _ _)
  · refine (setRx_kept p .idle s).trans ?_
    split
    · exact countPort_kept _ _ _
    · exact countPort_kept _ _ _
    · exact receive_kept _ _ _

theorem receptionEnds_kept (p : Port) (line : List Byte) (s : State) :
    Kept s (endReception p line (s.countPort p fun c => { c with framesIn := c.framesIn + 1 })) :=
  (countPort_kept _ _ s).trans (endReception_kept p line _)

/-- A send completion with the taking that follows it: idle only with nothing left to take (R6, R8). -/
theorem sendDone_takeNext_kept (p : Port) (s : State) : Kept s (takeNext p (sendDone p s)) := by
  have k := (match p with
    | .head => takeHead_along (sendDone .head s)
    | .station => takeStation_along (sendDone .station s) : Along (sendDone p s) (takeNext p (sendDone p s)))
  have a : ∀ q : State → Prop, (q s → q (sendDone p s)) → (q (sendDone p s) → q (takeNext p (sendDone p s))) →
      q s → q (takeNext p (sendDone p s)) := fun _ h k => k ∘ h
  refine ⟨a portsFit ?_ k.kept.ports, a placesDiffer ?_ k.places, fun h p' => ?_, a logsFit ?_ k.kept.logs,
    a estopSafe ?_ k.safe, a timesAgree ?_ k.agree⟩
  · cases p <;> exact id
  · cases p <;> exact id
  · cases p <;> cases p' <;> intro e
    · have i := takeHead_idle e
      rw [show takeNext .head (sendDone .head s) = sendDone .head s from i.2.2.2.2]
      exact ⟨i.2.1, i.2.2.1, i.2.2.2.1⟩
    · obtain ⟨x, u, v, e', -⟩ := takeHead_only (sendDone .head s)
      have e'' : takeNext .head (sendDone .head s) =
        { sendDone .head s with head := x, urgent := u, headPlace := v } := e'
      rw [e''] at e ⊢
      exact h .station e
    · obtain ⟨x, e', -⟩ := takeStation_only (sendDone .station s)
      have e'' : takeNext .station (sendDone .station s) = { sendDone .station s with station := x } := e'
      rw [e''] at e ⊢
      exact h .head e
    · have i := takeStation_idle e
      rw [show takeNext .station (sendDone .station s) = sendDone .station s from i.2.2]
      exact i.2.1
  all_goals cases p <;> exact id

theorem startSent_kept (sd : Side) (s : State) : Kept s (startSent sd s) :=
  Kept.toRoller (fun _ => by simp) (fun _ h => h)

theorem reportSent_kept (f : Frame) (s : State) : Kept s (reportSent f s) :=
  Kept.ite (startSent_kept _ s) (Kept.ite (startSent_kept _ s) (Kept.refl s))

theorem taken_kept {p : Port} {r : Route} {s t : State} {f : Frame} (h : taken p r s = some (f, t)) : Kept s t := by
  unfold taken at h
  split at h
  · cases h
  next f' rest e =>
    split at h
    · cases h
      exact Kept.toPort (fun k => by rw [e] at k; exact Nat.le_of_succ_le k) rfl id
    · cases h

/-- A command of the Router: the frame taken, and what is done with it. -/
theorem routed_kept {p : Port} {r : Route} {g : Frame → State → State} (h : ∀ f t, Kept t (g f t)) (s : State) :
    Kept s (match taken p r s with
      | some (f, t) => g f t
      | none => s) := by
  split
  next e => exact (taken_kept e).trans (h _ _)
  · exact Kept.refl s

/-! ### Frames of the heads and the station's START and STOP -/

theorem contentError_kept (p : Port) (s : State) : Kept s (contentError p s) := countPort_kept _ _ s

theorem takeSampleFrame_kept (f : Frame) (s : State) : Kept s (takeSampleFrame f s) :=
  Kept.ite (takeSample_along _ _ _ s).kept (contentError_kept _ s)


theorem stoppingBoth_safe {s : State} {x y : PortState} {u v : Option WaitingStop} {n : Word32} {l r : RollerSide}
    (hl : l.still = true) (hr : r.still = true) : estopSafe (s.stoppingBoth x u v y n l r) := fun _ => ⟨hl, hr⟩

theorem estopRollers_kept (s : State) : Kept s (estopRollers s) := by
  let s0 : State := { s with rollers := { s.rollers with estop := true } }
  have k : Along s0 (estopRollers s) :=
    ((offerStop_along .left s0).trans (offerStop_along .right _)).trans
      ((estopSide_along .left _ _).trans (estopSide_along .right _ _))
  have safe : estopSafe (estopRollers s) := by
    obtain ⟨x, u, v, y, n, l, r, e, hl, hr, -⟩ := estopRollers_only s
    rw [e]
    exact stoppingBoth_safe hl.still hr.still
  exact ⟨k.kept.ports, k.kept.places, k.kept.idle, k.kept.logs, fun _ => safe, k.kept.agree⟩

theorem takeEstop_kept (b : Bool) (s : State) : Kept s (takeEstop b s) := by
  unfold takeEstop
  refine Kept.ite (Kept.refl s) (Kept.ite ((estopRollers_kept s).trans (estopLane_along _).kept) ?_)
  exact ⟨id, id, id, id, fun _ h => (nomatch h), id⟩

/-- A flag of the drive cabinet written leaves what the promises look at of the side. -/
theorem setFlags_kept (sd : Side) (c o : Bool) (s : State) :
    Kept s (s.setRoller sd { s.roller sd with contactor := c, overtemp := o }) := Kept.toRoller id fun _ => id

theorem takeOvertemp_kept (sd : Side) (b : Bool) (s : State) : Kept s (takeOvertemp sd b s) := by
  have k := (setFlags_kept sd (s.roller sd).contactor b s).trans (testDriveFault_along _).kept
  exact Kept.ite (Kept.refl s)
    (Kept.ite (k.trans ((overtempHeld_along sd _).trans (takeReports_along _ _)).kept) k)

/-- An uncommanded run leaves the side COASTING (R119). -/
theorem coast_along (sd : Side) (s : State) : Along s (s.setRoller sd { s.roller sd with state := .coasting }) :=
  Along.toRoller rfl rfl rfl fun _ _ => rfl

/-- After its flag is written, what the supervisor does with a contactor state (R119). -/
theorem contactor_along (sd : Side) (b : Bool) (s : State) :
    Along (s.setRoller sd { s.roller sd with contactor := b }) (contactor sd b s).1 := by
  unfold contactor
  dsimp only
  split
  · refine Along.trans ?_ (policyNotice_along _ _ _ _ _)
    exact Along.ite ((offerStop_along sd _).trans (cancelHeld_along (.inr rfl) _ _ _))
      ((offerStop_along sd _).trans (coast_along sd _))
  · exact Along.refl _

theorem takeContactor_kept (sd : Side) (b : Bool) (s : State) : Kept s (takeContactor sd b s) :=
  (setFlags_kept sd b (s.roller sd).overtemp s).trans
    ((contactor_along sd b s).trans (takeReports_along _ _)).kept

theorem takeStatus_kept (l : List Byte) (s : State) : Kept s (takeStatus l s) :=
  ((((takeEstop_kept _ s).trans (takeOvertemp_kept .left _ _)).trans (takeOvertemp_kept .right _ _)).trans
    ((takeContactor_kept .left _ _).trans (takeContactor_kept .right _ _))).trans (maybeReturn_along _).kept

theorem takeStatusFrame_kept (f : Frame) (s : State) : Kept s (takeStatusFrame f s) :=
  Kept.ite ((offerCounted_along .station _ s).kept.trans (takeStatus_kept _ _)) (contentError_kept _ s)

/-! ### Requests -/

theorem takeRequest_kept {owns : List Byte → Bool} {s t : State} {f : Frame}
    (h : takeRequest owns s = some (f, t)) : Kept s t := by
  unfold takeRequest at h
  split at h
  next e =>
    split at h
    · cases h; exact taken_kept e
    · cases h
  · cases h

theorem onRequest_kept {code : Byte} {handle : Nat → List Byte → State → State}
    (h : ∀ n l t, Kept t (handle n l t)) (s : State) : Kept s (onRequest code handle s) := by
  unfold onRequest
  split
  next e => exact (takeRequest_kept e).trans (h _ _ _)
  · exact Kept.refl s

theorem onSelected_kept {code selector : Byte} {named : Byte → Bool} {handle : Nat → List Byte → State → State}
    (h : ∀ n l t, Kept t (handle n l t)) (s : State) : Kept s (onSelected code selector named handle s) := by
  unfold onSelected
  split
  next e => exact (takeRequest_kept e).trans (h _ _ _)
  · exact Kept.refl s

theorem oneByte_kept {act : Nat → State → State} (h : ∀ n t, Kept t (act n t)) (code wanted : Byte) (n : Nat)
    (l : List Byte) (s : State) : Kept s (oneByte code wanted act n l s) :=
  Kept.ite (malformed_kept _ _ s) (Kept.ite (h _ s) (outOfRange_kept _ _ s))

theorem setShadow_kept (shadow : Bank) (banks : BankControl) (s : State) : Kept s { s with shadow, banks } :=
  Kept.inert s _ _ _ _ _ _ _ _ _ _ _ _ _ _ _

theorem takeTableWrite_kept (n : Nat) (l : List Byte) (s : State) : Kept s (takeTableWrite n l s) := by
  unfold takeTableWrite
  refine Kept.ite (malformed_kept _ _ s) ?_
  split
  · exact Kept.ite (reply_kept _ _ _ _ s) (outOfRange_kept _ _ s)
  · split
    · exact malformed_kept _ _ s
    · unfold tableWrite
      refine Kept.ite (reply_kept _ _ _ _ s) (Kept.ite (outOfRange_kept _ _ s) ?_)
      split
      · exact reply_kept _ _ _ _ s
      · exact (setShadow_kept _ _ s).trans (reply_kept _ _ _ _ _)

theorem takeTableRead_kept (n : Nat) (l : List Byte) (s : State) : Kept s (takeTableRead n l s) := by
  unfold takeTableRead
  refine Kept.ite (malformed_kept _ _ s) ?_
  split
  · exact Kept.ite (outOfRange_kept _ _ s) (reply_kept _ _ _ _ s)
  · exact outOfRange_kept _ _ s

theorem applyRequest_kept (n : Nat) (s : State) : Kept s (applyRequest n s) := by
  unfold applyRequest
  refine Kept.ite (reply_kept _ _ _ _ s) (Kept.ite (reply_kept _ _ _ _ s) ?_)
  split
  · exact (setShadow_kept s.shadow _ s).trans (reply_kept _ _ _ _ _)
  · exact Kept.ite ((setShadow_kept s.shadow _ s).trans (reply_kept _ _ _ _ _))
      ((setShadow_kept s.shadow _ s).trans (applySwitch_along (fun t => reply_along _ _ _ _ t) _ _).kept)

theorem cancelRequest_kept (n : Nat) (s : State) : Kept s (cancelRequest n s) :=
  Kept.ite (((setShadow_kept s.shadow _ s).trans (reply_kept _ _ _ _ _)).trans (notice_along _ _ _).kept)
    (reply_kept _ _ _ _ s)

theorem takeBankStatus_kept (n : Nat) (l : List Byte) (s : State) : Kept s (takeBankStatus n l s) :=
  Kept.ite (malformed_kept _ _ s) (reply_kept _ _ _ _ s)

theorem takeCadenceSet_kept (n : Nat) (l : List Byte) (s : State) : Kept s (takeCadenceSet n l s) := by
  unfold takeCadenceSet
  refine Kept.ite (malformed_kept _ _ s) (Kept.ite (reply_kept _ _ _ _ s) ?_)
  split
  · exact outOfRange_kept _ _ s
  · exact Kept.ite ((setCad_kept _ _ s).trans (reply_kept _ _ _ _ _)) (outOfRange_kept _ _ s)

theorem syncRequest_kept (c : SyncCode) (n : Nat) (s : State) : Kept s (syncRequest c n s) := by
  unfold syncRequest
  split
  · exact reply_kept _ _ _ _ s
  · exact (((issueSync_along c .station s).trans (reply_along _ _ _ _ _)).trans (syncNotice_along _ _ _ _)).kept

theorem takeCountersLatch_kept (n : Nat) (l : List Byte) (s : State) : Kept s (takeCountersLatch n l s) := by
  unfold takeCountersLatch
  refine Kept.ite (malformed_kept _ _ s) ?_
  split
  · exact (Kept.inert s _ _ _ _ _ _ _ _ _ _ _ _ _ _ _).trans (reply_kept _ _ _ _ _)
  · exact outOfRange_kept _ _ s

theorem takeStatusRead_kept (n : Nat) (l : List Byte) (s : State) : Kept s (takeStatusRead n l s) := by
  unfold takeStatusRead
  refine Kept.ite (malformed_kept _ _ s) ?_
  split
  · exact reply_kept _ _ _ _ s
  · exact outOfRange_kept _ _ s

theorem logRead_kept (count : Nat) (remove : Bool) (n : Nat) (s : State) : Kept s (logRead count remove n s) := by
  have k : Along s { s with syncLog := { entries := s.syncLog.entries.drop count, overflow := 0 } } :=
    Along.toLog (fun h => by simp only [List.length_drop]; omega) (fun _ => Nat.zero_le _)
  exact (Kept.ite k.kept (Kept.refl s)).trans (reply_kept _ _ _ _ _)

theorem takeLogRead_kept (n : Nat) (l : List Byte) (s : State) : Kept s (takeLogRead n l s) := by
  unfold takeLogRead
  refine Kept.ite (malformed_kept _ _ s) ?_
  split
  · exact Kept.ite (logRead_kept _ _ _ s) (outOfRange_kept _ _ s)
  · exact outOfRange_kept _ _ s

theorem takeCertAck_kept (n : Nat) (l : List Byte) (s : State) : Kept s (takeCertAck n l s) := by
  unfold takeCertAck ackCertificate
  refine Kept.ite (malformed_kept _ _ s) ?_
  split
  · exact outOfRange_kept _ _ s
  · refine Kept.ite ?_ (reply_kept _ _ _ _ s)
    exact (((reply_along _ _ _ _ s).trans (removeOldest_along _)).trans
      ((setLane_along _ _).trans (maybeReturn_along _))).kept

theorem takeCertNumberSet_kept (n : Nat) (l : List Byte) (s : State) : Kept s (takeCertNumberSet n l s) :=
  Kept.ite (malformed_kept _ _ s) (Kept.ite (reply_kept _ _ _ _ s)
    ((Along.toCerts (x := { s.certs with number := BitVec.ofNat 32 (readNat l) }) id).kept.trans
       (reply_kept _ _ _ _ _)))

/-! ### Lane requests -/

theorem startCadences_kept (s : State) : Kept s (startCadences s) :=
  (Kept.toQuantities (List.length_map _)).trans (cadences_kept _ _ { s with quantities := _ })

theorem stopCadences_kept (s : State) : Kept s (stopCadences s) :=
  (Kept.toQuantities (List.length_map _)).trans (cadences_kept _ _ { s with quantities := _ })

theorem goRefused_kept (n : Nat) (s : State) : Kept s (goRefused n s) := reply_kept _ _ _ _ s

theorem goIdle_kept (n : Nat) (s : State) : Kept s (goIdle n s) :=
  Kept.ite (reply_kept _ _ _ _ s) (Kept.ite
    ((startCadences_kept s).trans
      ((syncBroadcast_along _ _ _).trans (enterLane_along (goDone_along n) _ _ _)).kept)
    (goRefused_kept n s))

theorem goOff_kept (n : Nat) (s : State) : Kept s (goOff n s) :=
  Kept.ite ((((laneStopBoth_along s).trans (enterLane_along (goDone_along n) _ _ _)).trans
      (syncBroadcast_along _ _ _)).kept.trans (stopCadences_kept _))
    (goRefused_kept n s)

theorem goManual_kept (n : Nat) (s : State) : Kept s (goManual n s) :=
  Kept.ite (enterLane_along (goDone_along n) _ _ s).kept (goRefused_kept n s)

theorem enterVehicle_along (g : GoRequest) (n : Nat) (s : State) : Along s (enterVehicle g n s) := by
  have tare : ∀ t, Along t (logTare t) := fun t => (logSync_along _ _ t).trans (syncNotice_along _ _ _ _)
  exact ((((takeTare_along s).trans (tare _)).trans (plateOn_along _)).trans (offerGuide_along _ _)).trans
    (enterLane_along (goDone_along n) _ _ _)

theorem goEntry_kept (n : Nat) (s : State) : Kept s (goEntry n s) :=
  Kept.ite (enterVehicle_along _ _ s).kept (goRefused_kept n s)

theorem goEntryToTest_kept (n : Nat) (s : State) : Kept s (goEntryToTest n s) :=
  Kept.ite ((setLane_along _ s).trans (enterVehicle_along _ _ _)).kept (goRefused_kept n s)

theorem goTest_kept (n : Nat) (s : State) : Kept s (goTest n s) :=
  Kept.ite (startTest_along (goDone_along n) _ s).kept (goRefused_kept n s)

theorem goPause_kept (n : Nat) (s : State) : Kept s (goPause n s) := by
  unfold goPause
  refine Kept.ite ?_ (goRefused_kept n s)
  exact Kept.ite ((setLane_along _ s).trans (enterLane_along (goDone_along n) _ _ _)).kept
    (((setLane_along _ s).trans (suspend_along _)).trans (enterLane_along (goDone_along n) _ _ _)).kept

theorem resumePaused_along (n : Nat) (s : State) : Along s (resumePaused n s) :=
  Along.ite ((setLane_along _ s).trans (returnToTesting_along (goDone_along n) _))
    ((setLane_along _ s).trans (goDone_along n _))

theorem resumeHalted_along (n : Nat) (r : LaneState) (s : State) : Along s (resumeHalted n r s) := by
  have lane := setLane_along (fun l => { l with causes := { l.causes with estop := false }, remembered := none }) s
  have enter : ∀ x, Along s (enterLane x .resumed (goDone n) (s.setLane fun l =>
      { l with causes := { l.causes with estop := false }, remembered := none })) := fun x =>
    lane.trans (enterLane_along (goDone_along n) x _ _)
  unfold resumeHalted
  refine Along.ite ((enter r).trans (exitReady_along _)) ?_
  split
  · exact Along.ite (lane.trans (returnToTesting_along (goDone_along n) _)) (enter _)
  · exact Along.ite (lane.trans (returnToTesting_along (goDone_along n) _)) (enter _)
  · exact enter _
  · exact Along.ite ((enter _).trans (startTest_along Along.refl _ _)) (enter _)
  · exact Along.ite ((enter _).trans (exitGuide_along _)) (enter _)
  all_goals exact enter _

theorem goResume_kept (n : Nat) (s : State) : Kept s (goResume n s) := by
  unfold goResume
  split
  · exact Kept.ite (goRefused_kept n s) (resumeHalted_along n _ s).kept
  · exact Kept.ite (goRefused_kept n s)
      ((setLane_along _ s).trans (enterLane_along (goDone_along n) _ _ _)).kept
  · exact Kept.ite (goRefused_kept n s) (resumePaused_along n s).kept
  · exact goRefused_kept n s

/-- A vehicle is opened with no live and no hold time, at the lane time of the moment (R159, R173). -/
theorem openVehicle_kept (r : OpenRequest) (s : State) : Kept s (openVehicle r s) where
  ports := id
  places := id
  idle := id
  logs := id
  safe := id
  agree := fun _ v h => by
    cases h
    show (0 : Word32) + 0 = s.clock.laneTime - s.clock.laneTime
    rw [BitVec.sub_self]; rfl

theorem takeVehicleOpen_kept (n : Nat) (l : List Byte) (s : State) : Kept s (takeVehicleOpen n l s) := by
  unfold takeVehicleOpen
  split
  · exact malformed_kept _ _ s
  · exact Kept.ite (reply_kept _ _ _ _ s) (Kept.ite ((openVehicle_kept _ s).trans (reply_kept _ _ _ _ _))
      (outOfRange_kept _ _ s))

theorem laneAfterCancel_along (s : State) : Along s (laneAfterCancel s) := by
  unfold laneAfterCancel
  split
  · exact Along.refl s
  · exact Along.refl s
  · exact Along.refl s
  · exact Along.refl s
  · exact Along.ite (setLane_along _ s) (setLane_along _ s)
  all_goals exact Along.ite (enterExit_along .cancel s) (setLane_along _ s)

theorem takeVehicleCancel_kept (n : Nat) (l : List Byte) (s : State) : Kept s (takeVehicleCancel n l s) := by
  unfold takeVehicleCancel cancelVehicle
  refine Kept.ite (malformed_kept _ _ s) (Kept.ite (reply_kept _ _ _ _ s) ?_)
  refine Along.kept (Along.trans ?_ (laneAfterCancel_along _))
  exact ((((clearEngine_along s).trans (laneStopBoth_along _)).trans (discardWith_along _ _)).trans
    ((count_along _ _).trans (setLane_along _ _))).trans (reply_along _ _ _ _ _)

/-- A START emptied out of the head queue leaves its side no more started than it was (R109). -/
theorem emptiedSide_along (sd : Side) (s : State) : Along s (emptiedSide sd s) := by
  unfold emptiedSide
  refine Along.ite (Along.toRoller ?_ ?_ ?_ ?_) (Along.refl s)
  · split <;> rfl
  · split <;> rfl
  · split <;> rfl
  · split
    · exact fun _ _ => rfl
    · exact fun _ => id

theorem emptyQueues_kept (s : State) : Kept s (emptyQueues s) := by
  refine ((emptiedSide_along .left s).trans (emptiedSide_along .right _)).kept.trans ?_
  refine Kept.trans ?_ (discardBatches_along _).kept
  generalize emptiedSide .right (emptiedSide .left s) = t
  exact ⟨fun ⟨a, b, _, _⟩ => ⟨a, b, Nat.zero_le _, Nat.zero_le _⟩, id,
    fun h p => match p with
      | .head => fun e => ⟨rfl, (h .head e).2⟩
      | .station => fun _ => rfl,
    id, id, id⟩

theorem resetVehicle_along (s : State) : Along s (resetVehicle s) := by
  unfold resetVehicle
  refine Along.trans (Along.trans ?_ (setEngine_along _ _)) (setLane_along _ _)
  exact Along.ite ((discard_along s).trans (count_along _ _)) (Along.refl s)

theorem takeLaneReset_kept (n : Nat) (l : List Byte) (s : State) : Kept s (takeLaneReset n l s) := by
  unfold takeLaneReset laneReset
  refine Kept.ite (malformed_kept _ _ s) ?_
  refine Kept.trans ?_ ((applyPending_along .laneReset _).trans
    ((reply_along _ _ _ _ _).trans ((laneStateNotice_along _ _ _).trans (certSendIfRoom_along _)))).kept
  have stopped : Kept s (stopCadences ((resetVehicle (laneStopBoth (emptyQueues s)).1).setLane fun l =>
      { l with state := .off })) := by
    refine Kept.trans (Kept.trans ?_ (setLane_along _ _).kept) (stopCadences_kept _)
    exact (emptyQueues_kept s).trans ((laneStopBoth_along _).trans (resetVehicle_along _)).kept
  exact Kept.ite stopped (stopped.trans (syncBroadcast_along _ _ _).kept)

/-! ### Time -/

theorem issueTick_kept (c : Cadence) (s : State) : Kept s (issueTick c s) := by
  unfold issueTick
  have k := fun x f => (setCad_kept c x s).trans (offer_along .head f _).kept
  exact Kept.ite (k _ _) ((k _ _).trans ((setCad_kept c _ _).trans (count_kept _ _)))

theorem tickEvent_kept (c : Cadence) (o : CloseOrder) (s : State) : Kept s (tickEvent c o s).1 := by
  unfold tickEvent
  split
  · dsimp only
    split
    · exact (setCad_kept c _ s).trans (issueTick_kept c _)
    · exact (((setCad_kept c _ s).trans (setCad_kept c _ _)).trans (tickClose_along _ _ _ _).kept).trans
        (issueTick_kept c _)
  · exact Kept.refl s

theorem whenTrace_kept (c : Cadence) (o : CloseOrder) (happens : CloseTrace → Bool) (s : State) :
    Kept s (whenTrace c o happens s) := Kept.ite (tickEvent_kept c o s) (Kept.refl s)

theorem ageHistory_kept (sd : Side) (s : State) : Kept s (ageHistory sd s) :=
  Kept.toRoller (fun h => (List.length_map _).trans_le h) fun _ => id

/-- One millisecond goes to lane time and to exactly one of live and hold time of an open vehicle (R172, R173). -/
theorem millisecond_kept (s : State) : Kept s (millisecond s) := by
  unfold millisecond
  refine Kept.ite ⟨id, id, id, id, id, fun h v hv => ?_⟩ (Kept.refl s)
  have hv' : s.vehicle = some v := hv
  have e := h v hv'
  simp only [advanceClock, hv', Option.isSome_some, Bool.true_and]
  cases holds s.lane.state <;>
    simp only [Bool.not_true, Bool.not_false, if_true, if_false, Bool.false_eq_true] <;> bv_omega

theorem stepClock_kept (s : State) (a b : CadenceState) :
    Kept s { s with cadA := a, cadB := b, clock := stepClock s.clock } := by
  refine ⟨id, id, id, id, id, fun h v hv => ?_⟩
  have e := h v hv
  simp only [stepClock]
  split <;> exact e

theorem takeDueWork_kept (s : State) : Kept s (takeDueWork s) := by
  have a := (timeoutExpiry_along s).trans ((spinUpWindowEnds_along .left _).trans (spinUpWindowEnds_along .right _))
  have b := a.trans ((heldTest_along .left _).trans (heldTest_along .right _))
  exact b.kept.trans (((ageHistory_kept .left _).trans (ageHistory_kept .right _)).trans (resendDue_along _).kept)

theorem takeTicks_kept (s : State) : Kept s (takeTicks s) :=
  (tickEvent_kept .a .clearanceLast s).trans (tickEvent_kept .b .clearanceLast _)

theorem referenceStep_kept (s : State) : Kept s (referenceStep s) := by
  refine Kept.trans (Kept.trans ?_ (takeFreedPlaces_along _).kept) (stepClock_kept _ _ _)
  exact Kept.ite (((takeTicks_kept s).trans (millisecond_kept _)).trans (takeDueWork_kept _))
    ((Kept.ite (takeDueWork_kept s) (Kept.refl s)).trans (takeTicks_kept _))

/-! ### Every command -/

theorem next_kept {s t u : State} (h : (.next u : Host.Outcome State Fault Refusal) = .next t) (k : Kept s u) :
    Kept s t := by
  cases h
  exact k

theorem execSendBegin_kept {p : Port} {s t : State} (h : execSendBegin p s = .next t) : Kept s t := by
  unfold execSendBegin at h
  refine next_kept h ?_
  split
  · exact Kept.toPort id rfl fun e => nomatch e
  · exact Kept.refl s

theorem execStationSendCompletion_kept {s t : State} (h : execStationSendCompletion s = .next t) : Kept s t := by
  unfold execStationSendCompletion at h
  refine next_kept h ?_
  split
  · exact sendDone_takeNext_kept .station s
  · exact Kept.refl s

theorem execHeadSendCompletion_kept {s t : State} (h : execHeadSendCompletion s = .next t) : Kept s t := by
  unfold execHeadSendCompletion at h
  refine next_kept h ?_
  split
  · exact (sendDone_takeNext_kept .head s).trans (reportSent_kept _ _)
  · exact Kept.refl s

/-- A station START or STOP: judged for its side, or a content error (R19). -/
theorem command_kept {g : Side → State → State × List Report} (h : ∀ sd s, Along s (g sd s).1) (l : List Byte)
    (s : State) : Kept s (match commandSide l with
      | some sd => takeReports (g sd s).2 (g sd s).1
      | none => contentError .station s) := by
  split
  · exact ((h _ s).trans (takeReports_along _ _)).kept
  · exact contentError_kept _ s

/-- Every command keeps the promises of Safety.lean. -/
theorem exec_kept (i : Instr) {s t : State} (h : exec i s = .next t) : Kept s t := by
  cases i with
  | powerOnReset => exact next_kept h (powerOnReset_kept s)
  | reception p line => exact next_kept h (Kept.ite (receptionEnds_kept p line s) (Kept.refl s))
  | startDelimiterSeen p => exact next_kept h (Kept.ite (receptionEnds_kept p _ s) (setRx_kept p _ s))
  | sendBegin p => exact execSendBegin_kept h
  | stationSendCompletion => exact execStationSendCompletion_kept h
  | headSendCompletion => exact execHeadSendCompletion_kept h
  | misdirectedFrame p => exact next_kept h (routed_kept (fun _ t => countPort_kept p _ t) s)
  | forwardedFrame p => exact next_kept h (routed_kept (fun f t => (offerCounted_along _ f t).kept) s)
  | sampleFrame => exact next_kept h (routed_kept takeSampleFrame_kept s)
  | statusFrame => exact next_kept h (routed_kept takeStatusFrame_kept s)
  | stationStart =>
    exact next_kept h (routed_kept (fun f t => command_kept (judgeStart_along .station) f.payload t) s)
  | stationStop => exact next_kept h (routed_kept (fun f t => command_kept stationStop_along f.payload t) s)
  | unknownRequest =>
    unfold exec execUnknownRequest at h
    refine next_kept h ?_
    split
    next e => exact (takeRequest_kept e).trans (reply_kept _ _ _ _ _)
    · exact Kept.refl s
  | tableWrite => exact next_kept h (onRequest_kept takeTableWrite_kept s)
  | tableRead => exact next_kept h (onRequest_kept takeTableRead_kept s)
  | bankSwitchApply => exact next_kept h (onSelected_kept (oneByte_kept applyRequest_kept _ _) s)
  | bankSwitchCancel => exact next_kept h (onSelected_kept (oneByte_kept cancelRequest_kept _ _) s)
  | bankStatus => exact next_kept h (onRequest_kept takeBankStatus_kept s)
  | goIdle => exact next_kept h (onSelected_kept (oneByte_kept goIdle_kept _ _) s)
  | goOff => exact next_kept h (onSelected_kept (oneByte_kept goOff_kept _ _) s)
  | goManual => exact next_kept h (onSelected_kept (oneByte_kept goManual_kept _ _) s)
  | goEntry => exact next_kept h (onSelected_kept (oneByte_kept goEntry_kept _ _) s)
  | goTest => exact next_kept h (onSelected_kept (oneByte_kept goTest_kept _ _) s)
  | goEntryToTest => exact next_kept h (onSelected_kept (oneByte_kept goEntryToTest_kept _ _) s)
  | goPause => exact next_kept h (onSelected_kept (oneByte_kept goPause_kept _ _) s)
  | goResume => exact next_kept h (onSelected_kept (oneByte_kept goResume_kept _ _) s)
  | vehicleOpen => exact next_kept h (onRequest_kept takeVehicleOpen_kept s)
  | vehicleCancel => exact next_kept h (onRequest_kept takeVehicleCancel_kept s)
  | laneReset => exact next_kept h (onRequest_kept takeLaneReset_kept s)
  | cadenceSet => exact next_kept h (onRequest_kept takeCadenceSet_kept s)
  | syncRequestZero => exact next_kept h (onSelected_kept (oneByte_kept (syncRequest_kept _) _ _) s)
  | syncRequestStreamOn => exact next_kept h (onSelected_kept (oneByte_kept (syncRequest_kept _) _ _) s)
  | syncRequestStreamOff => exact next_kept h (onSelected_kept (oneByte_kept (syncRequest_kept _) _ _) s)
  | syncRequestHeadRestart => exact next_kept h (onSelected_kept (oneByte_kept (syncRequest_kept _) _ _) s)
  | countersLatch => exact next_kept h (onRequest_kept takeCountersLatch_kept s)
  | statusRead => exact next_kept h (onRequest_kept takeStatusRead_kept s)
  | logRead => exact next_kept h (onRequest_kept takeLogRead_kept s)
  | certAck => exact next_kept h (onRequest_kept takeCertAck_kept s)
  | certNumberSet => exact next_kept h (onRequest_kept takeCertNumberSet_kept s)
  | tickIssue c o => exact next_kept h (tickEvent_kept c o s)
  | quantityStale q o => exact next_kept h (whenTrace_kept _ _ _ s)
  | lock sd o => exact next_kept h (whenTrace_kept _ _ _ s)
  | release sd o => exact next_kept h (whenTrace_kept _ _ _ s)
  | revolutionCarry sd o => exact next_kept h (whenTrace_kept _ _ _ s)
  | presenceCountReached o => exact next_kept h (whenTrace_kept _ _ _ s)
  | guideBars o => exact next_kept h (whenTrace_kept _ _ _ s)
  | laneMillisecond => exact next_kept h (millisecond_kept s)
  | stepTimeout => exact next_kept h (timeoutExpiry_along s).kept
  | spinUpWindowExpiry sd => exact next_kept h (spinUpWindowEnds_along sd s).kept
  | heldStartPermitted sd => exact next_kept h (heldTest_along sd s).kept
  | historyEntryAged sd => exact next_kept h (ageHistory_kept sd s)
  | certResendDue => exact next_kept h (resendDue_along s).kept
  | certSend => exact next_kept h (certSendIfRoom_along s).kept
  | pendingGuideOffer => exact next_kept h (pendingGuideOffered_along s).kept
  | referenceStep => exact next_kept h (referenceStep_kept s)

/-- Every step keeps the promises of Safety.lean: the queue of commands is none of what they look at. -/
theorem step_kept {s t : State} (h : step s = .next t) : Kept s t := by
  unfold step at h
  split at h
  · cases h
    exact Kept.refl s
  next c rest _ =>
    exact (Kept.inert s _ _ _ _ _ _ _ _ _ _ _ _ _ _ rest).trans (exec_kept c h)

/-- Settles O59: its parts are what every step keeps. -/
theorem storesKeptInBounds : Obligations.StoresKeptInBounds := by
  unfold Obligations.StoresKeptInBounds
  refine ⟨fun s t ports places h => ?_, fun s t idle h => ?_, fun s t logs h => ?_⟩
  · exact ⟨(step_kept h).ports ports, (step_kept h).places places⟩
  · exact (step_kept h).idle idle
  · exact (step_kept h).logs logs

end Sys2Proof.Machine
end

section
/-! Receptions (R1 to R4, R183): what a receiver makes of the bytes on the line. -/

namespace Sys2Proof.Machine

/-! ### The line read back -/

theorem escapeBytes_cons (b : Byte) (l : List Byte) : escapeBytes (b :: l) = escapeByte b ++ escapeBytes l :=
  List.flatMap_cons

/-- The second byte of an escape pair is none of the delimiters, and is read back as the byte it stands for. -/
theorem escape_pair {b : Byte} (h : b = 0xF1 ∨ b = 0xF2 ∨ b = 0xF3) :
    b - 0x10 ≠ 0xF2 ∧ b - 0x10 ≠ 0xF3 ∧ (b - 0x10 = 0xE1 ∨ b - 0x10 = 0xE2 ∨ b - 0x10 = 0xE3) ∧
      b - 0x10 + 0x10 = b := by
  rcases h with rfl | rfl | rfl <;> decide

/-- One byte of the line, escaped where it must be: taken, or the byte too many (R1, R183). -/
theorem scanLine_escapeByte (got : List Byte) (b : Byte) (tail : List Byte) :
    scanLine got (escapeByte b ++ tail) =
      if got.length ≥ 126 then ignoreLine tail else scanLine (b :: got) tail := by
  unfold escapeByte
  split
  next h =>
    obtain ⟨h2, h3, he, hb⟩ := escape_pair h
    show scanLine got (0xF1 :: (b - 0x10) :: tail) = _
    rw [scanLine, if_neg (by decide), if_neg (by decide), if_pos rfl, if_neg h2, if_neg h3, if_pos he, hb]
  next h =>
    obtain ⟨h1, h2, h3⟩ : b ≠ 0xF1 ∧ b ≠ 0xF2 ∧ b ≠ 0xF3 := by tauto
    show scanLine got (b :: tail) = _
    rw [scanLine.eq_def]
    simp only [h1, h2, h3, if_false]

/-- Up to 126 bytes that are put on the line are read back (R183). -/
theorem scanLine_escapeBytes (got l tail : List Byte) (h : got.length + l.length ≤ 126) :
    scanLine got (escapeBytes l ++ tail) = scanLine (l.reverse ++ got) tail := by
  induction l generalizing got with
  | nil => rfl
  | cons b rest ih =>
    have hlen : got.length + (rest.length + 1) ≤ 126 := h
    rw [escapeBytes_cons, List.append_assoc, scanLine_escapeByte, if_neg (by omega),
      ih (b :: got) (by rw [List.length_cons]; omega)]
    simp

theorem scanLine_stop (l : List Byte) (h : l.length ≤ 126) : scanLine [] (escapeBytes l ++ [0xF3]) = .bytes l := by
  rw [scanLine_escapeBytes [] l _ (by simpa using h)]
  simp [scanLine]

/-- 127 bytes break a reception off at the last of them (R1). -/
theorem scanLine_tooLong (l tail : List Byte) (h : l.length = 127) :
    scanLine [] (escapeBytes l ++ tail) = ignoreLine tail := by
  obtain ⟨front, b, rfl⟩ := List.eq_nil_or_concat l |>.resolve_left (by rintro rfl; cases h)
  rw [List.concat_eq_append] at h ⊢
  have hf : front.length = 126 := by simpa using h
  have e : escapeBytes (front ++ [b]) = escapeBytes front ++ escapeByte b := by
    simp [escapeBytes]
  rw [e, List.append_assoc, scanLine_escapeBytes [] front _ (by simp [hf]), scanLine_escapeByte,
    if_pos (by simp [hf])]

theorem scanLine_badEscape (got : List Byte) {e : Byte} (h : e ∉ ([0xE1, 0xE2, 0xE3, 0xF2, 0xF3] : List Byte)) :
    scanLine got [0xF1, e] = .broken .ignoring := by
  simp only [List.mem_cons, List.not_mem_nil, or_false, not_or] at h
  obtain ⟨h1, h2, h3, h4, h5⟩ := h
  rw [scanLine, if_neg (by decide), if_neg (by decide), if_pos rfl, if_neg h4, if_neg h5,
    if_neg (by tauto)]
  rfl

/-! ### Numbers and check values -/

/-- Two bytes spell the word they were made of. -/
theorem readNat_word16 (w : Word16) : readNat (word16 w) = w.toNat := by
  have h := w.isLt
  simp only [word16, be16, readNat, List.foldl_cons, List.foldl_nil, BitVec.toNat_ofNat]
  omega

theorem word16_length (w : Word16) : (word16 w).length = 2 := rfl

/-- The length check of R2. -/
theorem checkArrival_lengthError {l : List Byte}
    (h : l.length < 6 ∨ 120 < (l.getD 3 0).toNat ∨ l.length ≠ (l.getD 3 0).toNat + 6) :
    checkArrival l = .lengthError := by
  match l, h with
  | [], _ => rfl
  | [_], _ => rfl
  | [_, _], _ => rfl
  | [_, _, _], _ => rfl
  | dst :: src :: kind :: len :: rest, h =>
    have h' : len.toNat > 120 ∨ rest.length ≠ len.toNat + 2 := by
      simp only [List.length_cons, List.getD_cons_succ, List.getD_cons_zero] at h
      omega
    rw [checkArrival, if_pos h']

/-- What a reception of good length makes of its check value (R3). -/
theorem checkArrival_goodLength (dst src kind : Byte) (payload tail : List Byte) (hp : payload.length ≤ 120)
    (ht : tail.length = 2) :
    checkArrival (checkedBytes dst src kind payload ++ tail) =
      if crc16 (checkedBytes dst src kind payload) = BitVec.ofNat 16 (readNat tail) then
        .good { dst, src, kind, payload, check := BitVec.ofNat 16 (readNat tail) }
      else .checkError := by
  have hn : (BitVec.ofNat 8 payload.length).toNat = payload.length := by
    rw [BitVec.toNat_ofNat]; omega
  have hl : ¬ (payload.length > 120 ∨ (payload ++ tail).length ≠ payload.length + 2) := by
    rw [List.length_append]; omega
  show checkArrival (dst :: src :: kind :: BitVec.ofNat 8 payload.length :: (payload ++ tail)) = _
  simp only [checkArrival, hn, if_neg hl, List.take_left, List.drop_left]

/-- A frame's bytes are read back as the frame (R183). -/
theorem checkArrival_frameBytes {f : Frame} (hp : f.payload.length ≤ 120)
    (hc : f.check = crc16 (checkedBytes f.dst f.src f.kind f.payload)) : checkArrival (frameBytes f) = .good f := by
  have e : BitVec.ofNat 16 (readNat (word16 f.check)) = f.check := by rw [readNat_word16, BitVec.ofNat_toNat]; simp
  rw [frameBytes, checkArrival_goodLength _ _ _ _ _ hp (word16_length _), e, if_pos hc.symm]

/-- A list of good length is a frame's checked bytes with two bytes after them (R2). -/
theorem goodLength_split {l : List Byte} (h6 : 6 ≤ l.length) (h : l.length = (l.getD 3 0).toNat + 6) :
    ∃ dst src kind payload tail, l = checkedBytes dst src kind payload ++ tail ∧
      payload.length = (l.getD 3 0).toNat ∧ tail.length = 2 := by
  match l, h6, h with
  | dst :: src :: kind :: len :: rest, _, h =>
    have hr : rest.length = len.toNat + 2 := by
      simp only [List.length_cons, List.getD_cons_succ, List.getD_cons_zero] at h
      omega
    have ht : (rest.take len.toNat).length = len.toNat := by rw [List.length_take]; omega
    refine ⟨dst, src, kind, rest.take len.toNat, rest.drop len.toNat, ?_, ht, by rw [List.length_drop]; omega⟩
    simp [checkedBytes, ht]

/-! ### Receptions -/

theorem exec_reception {p : Port} {s : State} (h : (s.port p).rx = .receiving) (line : List Byte) :
    exec (.reception p line) s =
      .next (endReception p line (s.countPort p fun c => { c with framesIn := c.framesIn + 1 })) :=
  congrArg Host.Outcome.next (if_pos h)

/-- A reception that breaks off is a framing error (R1). -/
theorem exec_reception_broken {p : Port} {s : State} {line : List Byte} {rx : RxState}
    (h : (s.port p).rx = .receiving) (hl : scanLine [] line = .broken rx) :
    exec (.reception p line) s = .next ((s.setPort p { s.port p with rx }).countPort p
      fun c => { c with framesIn := c.framesIn + 1, framing := c.framing + 1 }) := by
  rw [exec_reception h]
  simp only [endReception, hl]
  cases p <;> rfl

theorem exec_reception_lengthError {p : Port} {s : State} {line l : List Byte} (h : (s.port p).rx = .receiving)
    (hl : scanLine [] line = .bytes l) (ha : checkArrival l = .lengthError) :
    exec (.reception p line) s = .next ((s.setPort p { s.port p with rx := .idle }).countPort p
      fun c => { c with framesIn := c.framesIn + 1, length := c.length + 1 }) := by
  rw [exec_reception h]
  simp only [endReception, hl, ha]
  cases p <;> rfl

theorem exec_reception_checkError {p : Port} {s : State} {line l : List Byte} (h : (s.port p).rx = .receiving)
    (hl : scanLine [] line = .bytes l) (ha : checkArrival l = .checkError) :
    exec (.reception p line) s = .next ((s.setPort p { s.port p with rx := .idle }).countPort p
      fun c => { c with framesIn := c.framesIn + 1, checkValue := c.checkValue + 1 }) := by
  rw [exec_reception h]
  simp only [endReception, hl, ha]
  cases p <;> rfl

theorem exec_reception_good {p : Port} {s : State} {line l : List Byte} {f : Frame}
    (h : (s.port p).rx = .receiving) (hl : scanLine [] line = .bytes l) (ha : checkArrival l = .good f) :
    exec (.reception p line) s = .next (if (s.port p).fifo.length < fifoCap p then
        (s.setPort p { s.port p with rx := .idle, fifo := (s.port p).fifo ++ [f] }).countPort p
          fun c => { c with framesIn := c.framesIn + 1 }
      else
        (s.setPort p { s.port p with rx := .idle }).countPort p
          fun c => { c with framesIn := c.framesIn + 1, rxOverrun := c.rxOverrun + 1 }) := by
  rw [exec_reception h]
  simp only [endReception, hl, ha, receive]
  cases p
  · exact congrArg Host.Outcome.next (if_congr Iff.rfl rfl rfl)
  · exact congrArg Host.Outcome.next (if_congr Iff.rfl rfl rfl)

/-- Settles O4: the escapes are undone byte by byte, and the frame's own length and check value pass. -/
theorem goodFrameJoinsFifo : Obligations.GoodFrameJoinsFifo := by
  unfold Obligations.GoodFrameJoinsFifo
  intro p f s hrx hp hc
  have hlen : (frameBytes f).length ≤ 126 := by
    simp only [frameBytes, checkedBytes, List.cons_append, List.length_cons, List.length_append, word16_length]
    omega
  exact exec_reception_good hrx (scanLine_stop _ hlen) (checkArrival_frameBytes hp hc)

/-- Settles O5: the length check comes before the check value is looked at. -/
theorem lengthErrorCounted : Obligations.LengthErrorCounted := by
  unfold Obligations.LengthErrorCounted
  intro p l s hrx hlen hbad
  exact exec_reception_lengthError hrx (scanLine_stop l hlen) (checkArrival_lengthError hbad)

/-- Settles O6: the ways in which a line breaks off, one by one. -/
theorem brokenReceptionsCounted : Obligations.BrokenReceptionsCounted := by
  unfold Obligations.BrokenReceptionsCounted
  intro p l s hrx
  refine ⟨fun hlen h6 hp hl hcrc => ?_, fun tail rx h => exec_reception_broken hrx ?_⟩
  · obtain ⟨dst, src, kind, payload, tail, rfl, hpay, htail⟩ := goodLength_split h6 hl
    have hcut : (checkedBytes dst src kind payload ++ tail).length - 2 =
        (checkedBytes dst src kind payload).length := by
      rw [List.length_append, htail]; rfl
    rw [hcut, List.take_left, List.drop_left] at hcrc
    refine exec_reception_checkError hrx (scanLine_stop _ hlen) ?_
    rw [checkArrival_goodLength _ _ _ _ _ (by omega) htail, if_neg hcrc]
  · have read := fun hl : l.length ≤ 126 => scanLine_escapeBytes [] l tail (by simpa using hl)
    rcases h with ⟨hl, rfl, rfl⟩ | ⟨hl, rfl, rfl⟩ | ⟨hl, rfl, rfl⟩ | ⟨hl, rfl, rfl⟩ | ⟨hl, ⟨e, rfl, he⟩, rfl⟩
    · rw [read hl]; rfl
    · rw [read hl]; rfl
    · rw [scanLine_tooLong l _ hl]; rfl
    · rw [scanLine_tooLong l _ hl]; rfl
    · rw [read hl]; exact scanLine_badEscape _ he

end Sys2Proof.Machine
end

section
/-! Offers, sends and the Frame Router (R5 to R20): what an offer does at a quiet port and at a busy one, and the
commands of the ports. -/

namespace Sys2Proof.Machine

/-! ### Offers at a quiet port -/

/-- An idle transmitter for which nothing waits takes an offered frame at once (R5, R6, R8). -/
theorem offer_quiet {p : Port} {s : State} (f : Frame) (h : quiet s p) :
    offer p f s = (s.setPort p { s.port p with tx := .taken f }, true) := by
  obtain ⟨htx, hw⟩ := h
  cases p with
  | head =>
    obtain ⟨hq, hu, hv⟩ := hw
    have htx' : s.head.tx = .idle := htx
    simp [offer, hasRoom, queueCap, hq, takeNext, takeHead, State.setPort, htx', hu, hv]
  | station =>
    have hq : s.station.queue = [] := hw
    have htx' : s.station.tx = .idle := htx
    simp [offer, hasRoom, queueCap, hq, takeNext, takeStation, State.setPort, htx']

theorem offer_head_quiet {s : State} (f : Frame) (h : quiet s .head) :
    offer .head f s = ({ s with head := { s.head with tx := .taken f } }, true) := offer_quiet f h

theorem offer_station_quiet {s : State} (f : Frame) (h : quiet s .station) :
    offer .station f s = ({ s with station := { s.station with tx := .taken f } }, true) := offer_quiet f h

theorem offer_head_busy {s : State} (f : Frame) (h : s.head.tx ≠ .idle) :
    offer .head f s = if s.head.queue.length < 16 then
      ({ s with head := { s.head with queue := s.head.queue ++ [f] } }, true) else (s, false) :=
  offer_busy (p := .head) f h

theorem offer_station_busy {s : State} (f : Frame) (h : s.station.tx ≠ .idle) :
    offer .station f s = if s.station.queue.length < 32 then
      ({ s with station := { s.station with queue := s.station.queue ++ [f] } }, true) else (s, false) :=
  offer_busy (p := .station) f h

theorem offerCounted_quiet {p : Port} {s : State} (f : Frame) (h : quiet s p) :
    offerCounted p f s = s.setPort p { s.port p with tx := .taken f } := by
  simp only [offerCounted, offer_quiet f h, if_true]

theorem offerCounted_busy {p : Port} {s : State} (f : Frame) (h : (s.port p).tx ≠ .idle) :
    offerCounted p f s = if (s.port p).queue.length < queueCap p then
      s.setPort p { s.port p with queue := (s.port p).queue ++ [f] }
    else s.countPort p fun c => { c with txOverrun := c.txOverrun + 1 } := by
  simp only [offerCounted, offer_busy f h]
  split
  · rfl
  · rfl

theorem notice_quiet {s : State} (code : Byte) (l : List Byte) (h : quiet s .station) :
    notice code l s =
      { s with station := { s.station with tx := .taken (originate 62 kindNotice (code :: l)) } } :=
  offerCounted_quiet _ h

theorem notice_busy {s : State} (code : Byte) (l : List Byte) (h : s.station.tx ≠ .idle) :
    notice code l s = if s.station.queue.length < 32 then
      { s with station := { s.station with
          queue := s.station.queue ++ [originate 62 kindNotice (code :: l)] } }
    else { s with live := { s.live with station :=
      { s.live.station with txOverrun := s.live.station.txOverrun + 1 } } } :=
  offerCounted_busy (p := .station) _ h

theorem reply_quiet {s : State} (src : Nat) (code status : Byte) (l : List Byte) (h : quiet s .station) :
    reply src code status l s = { s with station := { s.station with
      tx := .taken (originate src kindMreply (code :: status :: l)) } } := by
  simp only [reply, offer_station_quiet _ h, if_true]

theorem reply_busy {s : State} (src : Nat) (code status : Byte) (l : List Byte) (h : s.station.tx ≠ .idle) :
    reply src code status l s = if s.station.queue.length < 32 then
      { s with station := { s.station with
          queue := s.station.queue ++ [originate src kindMreply (code :: status :: l)] } }
    else { s with live := { s.live with droppedReplies := s.live.droppedReplies + 1 } } := by
  simp only [reply, offer_station_busy _ h]
  split
  · rfl
  · rfl

/-- Settles O10: the offer at a quiet port and at a busy one, and a reply and a notice as such offers. -/
theorem repliesAndNoticesOffered : Obligations.RepliesAndNoticesOffered := by
  unfold Obligations.RepliesAndNoticesOffered
  refine ⟨fun p f s => ⟨offer_quiet f, offer_busy f⟩, fun src code status content s h => ?_,
    fun src code status content s h => ?_⟩
  · exact ⟨reply_quiet src code status content h, notice_quiet code content h⟩
  · exact ⟨reply_busy src code status content h, notice_busy code content h⟩

/-! ### STOPs -/

/-- A STOP of the side waits in an urgent place (R7). -/
def stopWaits (sd : Side) (s : State) : Bool := s.urgent.any (·.side == sd) || s.headPlace.any (·.side == sd)

/-- Where a STOP is placed (R7). -/
theorem placeStop_eq (sd : Side) (f : Frame) (s : State) : placeStop sd f s =
    { s with
      urgent := if stopWaits sd s = false ∧ s.urgent = none then some { side := sd, frame := f } else s.urgent
      headPlace :=
        if stopWaits sd s = false ∧ s.urgent ≠ none then some { side := sd, frame := f } else s.headPlace } := by
  unfold placeStop
  rw [show (s.urgent.any (·.side == sd) || s.headPlace.any (·.side == sd)) = stopWaits sd s from rfl]
  cases stopWaits sd s
  · cases hu : s.urgent <;> simp
  · simp

/-- The side's waiting STARTs taken out of the head transmit queue (R9, R109). -/
def removeStarts (sd : Side) (s : State) : State :=
  { s with
    head := { s.head with queue := s.head.queue.filter fun f => !isStart sd f }
    rollers := (s.setRoller sd { s.roller sd with
      outstanding := !startQueued sd s && (s.roller sd).outstanding }).rollers }

/-- A STOP offered: the STARTs removed, the STOP placed, and taken by an idle transmitter (R7 to R9). -/
theorem offerStop_eq (sd : Side) (s : State) : offerStop sd s =
    (takeHead (placeStop sd (stopFrame ((cabinetNode s).getD 0) sd) (removeStarts sd s)), startQueued sd s) := by
  unfold offerStop removeStarts
  cases startQueued sd s
  · rw [Bool.not_false, Bool.true_and,
      show s.setRoller sd { s.roller sd with outstanding := (s.roller sd).outstanding } = s from setRoller_roller s sd]
    rfl
  · rfl

/-- A STOP offered at a busy head port (R7, R9). -/
theorem offerStop_busy {sd : Side} {s : State} (h : s.head.tx ≠ .idle) :
    offerStop sd s =
      (let w : WaitingStop := { side := sd, frame := stopFrame ((cabinetNode s).getD 0) sd }
       { removeStarts sd s with
          urgent := if stopWaits sd s = false ∧ s.urgent = none then some w else s.urgent
          headPlace := if stopWaits sd s = false ∧ s.urgent ≠ none then some w else s.headPlace },
       startQueued sd s) := by
  have hb : (placeStop sd (stopFrame ((cabinetNode s).getD 0) sd) (removeStarts sd s)).head.tx ≠ .idle := by
    rw [placeStop_eq]
    exact h
  rw [offerStop_eq, takeHead_busy hb, placeStop_eq]
  rfl

/-- A STOP offered to an idle transmitter for which nothing waits is taken at once (R7, R8). -/
theorem offerStop_quiet {sd : Side} {s : State} (h : quiet s .head) : offerStop sd s =
    ({ s with head := { s.head with tx := .taken (stopFrame ((cabinetNode s).getD 0) sd) } }, false) := by
  obtain ⟨htx, hq, hu, hv⟩ := h
  have htx' : s.head.tx = .idle := htx
  simp [offerStop, startQueued, hq, placeStop, hu, hv, takeHead, htx']

/-- Settles O9, by the equations of an offered STOP. -/
theorem stopTakesItsPlace : Obligations.StopTakesItsPlace := by
  unfold Obligations.StopTakesItsPlace
  refine ⟨fun sd s h => offerStop_quiet h, fun sd s h => ?_⟩
  rw [offerStop_busy h]
  exact ⟨rfl, rfl, rfl, rfl, roller_setRoller_other s sd _, rfl⟩

/-! ### Sends -/

/-- A start delimiter outside a reception begins one (R1). -/
theorem exec_startDelimiter_begins {p : Port} {s : State} (h : (s.port p).rx ≠ .receiving) :
    exec (.startDelimiterSeen p) s = .next (s.setPort p { s.port p with rx := .receiving }) :=
  congrArg Host.Outcome.next (if_neg h)

/-- A second start delimiter is a framing error, and begins the next reception (R1). -/
theorem exec_startDelimiter_breaks {p : Port} {s : State} (h : (s.port p).rx = .receiving) :
    exec (.startDelimiterSeen p) s =
      .next (s.countPort p fun c => { c with framesIn := c.framesIn + 1, framing := c.framing + 1 }) := by
  calc exec (.startDelimiterSeen p) s
    _ = exec (.reception p [0xF2]) s := congrArg Host.Outcome.next ((if_pos h).trans (if_pos h).symm)
    _ = _ := exec_reception_broken h rfl
    _ = _ := by
      rw [show s.setPort p { s.port p with rx := .receiving } = s from by rw [← h]; exact setPort_port s p]

/-- What the head port holds once its transmitter has been idle and taken the next frame: the urgent slot, the queue
head place, and the port (R8). -/
def headAfterTake (s : State) : Option WaitingStop × Option WaitingStop × PortState :=
  match s.urgent, s.headPlace, s.head.queue with
  | some w, place, _ => (none, place, { s.head with tx := .taken w.frame })
  | none, some w, _ => (none, none, { s.head with tx := .taken w.frame })
  | none, none, g :: rest => (none, none, { s.head with tx := .taken g, queue := rest })
  | none, none, [] => (none, none, { s.head with tx := .idle })

/-- The completion of a head send, and the take that follows it (R8). -/
theorem takeHead_sendDone (s : State) : takeHead (sendDone .head s) =
    { s with
      urgent := (headAfterTake s).1, headPlace := (headAfterTake s).2.1, head := (headAfterTake s).2.2
      live := { s.live with head := { s.live.head with framesOut := s.live.head.framesOut + 1 } } } := by
  unfold headAfterTake takeHead sendDone
  cases hu : s.urgent with
  | some w => simp [State.setPort, State.countPort, State.count, hu]
  | none =>
    cases hv : s.headPlace with
    | some w => simp [State.setPort, State.countPort, State.count, hu, hv]
    | none => cases hq : s.head.queue <;> simp [State.setPort, State.countPort, State.count, hu, hv, hq]

theorem exec_headSendCompletion {f : Frame} {line : List Byte} {s : State} (h : s.head.tx = .sending f line) :
    exec .headSendCompletion s = .next (reportSent f (takeHead (sendDone .head s))) := by
  simp only [exec, execHeadSendCompletion, h]

/-- No frame is a START of both sides. -/
theorem isStart_other {sd : Side} {f : Frame} (h : isStart sd f = true) : isStart (otherSide sd) f = false := by
  simp only [isStart, Bool.and_eq_true, beq_iff_eq] at h
  obtain ⟨⟨hk, hs⟩, hp⟩ := h
  cases sd <;> simp [isStart, otherSide, hp, sideByte]

/-- The completion of a START goes to its side (R8, R109). -/
theorem reportSent_start {sd : Side} {f : Frame} (h : isStart sd f = true) (s : State) :
    reportSent f s = startSent sd s := by
  cases sd with
  | left => exact if_pos h
  | right =>
    have hl : isStart .left f = false := isStart_other h
    simp [reportSent, hl, h]

theorem reportSent_other {f : Frame} (hl : isStart .left f = false) (hr : isStart .right f = false) (s : State) :
    reportSent f s = s := by simp [reportSent, hl, hr]

/-- Settles O7: each command by its equation; the order of the next take is that of R8. -/
theorem sendsBeginAndComplete : Obligations.SendsBeginAndComplete := by
  unfold Obligations.SendsBeginAndComplete
  refine ⟨fun p s => ⟨exec_startDelimiter_begins, exec_startDelimiter_breaks⟩, fun p f s h => ?_,
    fun f line s h => ?_, fun f line s h hl hr => ?_, fun f line sd s h hf => ?_⟩
  · simp only [exec, execSendBegin, h]
    rfl
  · simp only [exec, execStationSendCompletion, h]
    cases hq : s.station.queue <;>
      simp [takeStation, sendDone, State.setPort, State.countPort, State.count, hq]
  · rw [exec_headSendCompletion h, reportSent_other hl hr, takeHead_sendDone, headAfterTake]
    cases hu : s.urgent with
    | some w => rfl
    | none =>
      cases hv : s.headPlace with
      | some w => simp [State.countPort, State.count]
      | none =>
        cases hq : s.head.queue with
        | nil => simp [State.countPort, State.count, hq]
        | cons g rest => simp [State.countPort, State.count]
  · refine ⟨_, exec_headSendCompletion h, ?_⟩
    rw [reportSent_start hf, takeHead_sendDone]
    refine ⟨?_, roller_setRoller_other _ sd _, rfl, rfl, rfl, rfl⟩
    exact (roller_setRoller _ sd _).trans (by simp only [beq_iff_eq]; rfl)

/-! ### The Router -/

theorem isHead_iff (a : Byte) : isHead a = true ↔ 1 ≤ a.toNat ∧ a.toNat ≤ 47 := by simp [isHead, inRange]

theorem isStation_iff (a : Byte) : isStation a = true ↔ a = 61 ∨ a = 62 := by
  simp only [isStation, inRange, Bool.and_eq_true, decide_eq_true_eq]
  bv_omega

/-- A kind that is none of the twelve of R183. -/
theorem unknownKind {k : Byte} (h : k = 0 ∨ 0x0C < k.toNat) :
    partOriginated k = false ∧ k ≠ kindSample ∧ k ≠ kindStatus ∧ k ≠ kindMgmt ∧ k ≠ kindCommand := by
  have other : ∀ c : Byte, c ≠ 0 → c.toNat ≤ 0x0C → k ≠ c := by
    rintro c h0 hc rfl
    exact h.elim h0 (by omega)
  refine ⟨?_, other _ (by decide) (by decide), other _ (by decide) (by decide), other _ (by decide) (by decide),
    other _ (by decide) (by decide)⟩
  simp only [partOriginated, List.contains_eq_mem, List.mem_cons, List.not_mem_nil, or_false, decide_eq_false_iff_not,
    not_or]
  exact ⟨other _ (by decide) (by decide), other _ (by decide) (by decide), other _ (by decide) (by decide),
    other _ (by decide) (by decide), other _ (by decide) (by decide), other _ (by decide) (by decide),
    other _ (by decide) (by decide), other _ (by decide) (by decide)⟩

/-- The Router's decision on a frame with a good address (R14 to R20). -/
theorem route_goodAddress {p : Port} {f : Frame} (s : State) (ha : goodAddress p f = true) : route p f s =
    if partOriginated f.kind then .misdirected
    else if f.kind = kindSample then if p == .head && f.dst == 0 then .sample else .misdirected
    else if f.kind = kindStatus then
      if p == .head && f.dst == 0 && cabinetNode s == some f.src.toNat then .status else .misdirected
    else if f.kind = kindMgmt then if p == .station && f.dst == 0 then .mgmt else .misdirected
    else if f.kind = kindCommand then if p == .head || f.dst == 0 then .misdirected else routeCommand f s
    else if f.dst = 0 then .misdirected
    else .forwarded := by
  simp only [route, ha, Bool.not_true, Bool.false_eq_true, if_false]

theorem route_badAddress {p : Port} {f : Frame} (s : State) (ha : goodAddress p f = false) :
    route p f s = .misdirected := by simp [route, ha]

/-- To show a frame misdirected, its address can be taken to be good. -/
theorem route_misdirected {p : Port} {f : Frame} {s : State}
    (h : goodAddress p f = true → route p f s = .misdirected) : route p f s = .misdirected := by
  cases ha : goodAddress p f
  · exact route_badAddress s ha
  · exact h ha

theorem goodAddress_head {f : Frame} : goodAddress .head f = true ↔
    isHead f.src = true ∧ (f.dst = 0 ∨ isStation f.dst = true) := by simp [goodAddress]

theorem goodAddress_station {f : Frame} : goodAddress .station f = true ↔
    isStation f.src = true ∧ (f.dst = 0 ∨ isHead f.dst = true) := by simp [goodAddress]

theorem route_kindSample {p : Port} {f : Frame} (s : State) (ha : goodAddress p f = true) (hk : f.kind = kindSample) :
    route p f s = if p == .head && f.dst == 0 then .sample else .misdirected := by
  rw [route_goodAddress s ha, hk, if_neg (by decide), if_pos rfl]

theorem route_kindStatus {p : Port} {f : Frame} (s : State) (ha : goodAddress p f = true) (hk : f.kind = kindStatus) :
    route p f s =
      if p == .head && f.dst == 0 && cabinetNode s == some f.src.toNat then .status else .misdirected := by
  rw [route_goodAddress s ha, hk, if_neg (by decide), if_neg (by decide), if_pos rfl]

theorem route_kindMgmt {p : Port} {f : Frame} (s : State) (ha : goodAddress p f = true) (hk : f.kind = kindMgmt) :
    route p f s = if p == .station && f.dst == 0 then .mgmt else .misdirected := by
  rw [route_goodAddress s ha, hk, if_neg (by decide), if_neg (by decide), if_neg (by decide), if_pos rfl]

theorem route_kindCommand {p : Port} {f : Frame} (s : State) (ha : goodAddress p f = true)
    (hk : f.kind = kindCommand) :
    route p f s = if p == .head || f.dst == 0 then .misdirected else routeCommand f s := by
  rw [route_goodAddress s ha, hk, if_neg (by decide), if_neg (by decide), if_neg (by decide), if_neg (by decide),
    if_pos rfl]

theorem route_sample {f : Frame} (s : State) (hs : isHead f.src = true) (hd : f.dst = 0) (hk : f.kind = kindSample) :
    route .head f s = .sample := by
  rw [route_kindSample s (goodAddress_head.mpr ⟨hs, .inl hd⟩) hk, hd]
  rfl

theorem route_status {f : Frame} {s : State} (hs : isHead f.src = true) (hd : f.dst = 0) (hk : f.kind = kindStatus)
    (hc : cabinetNode s = some f.src.toNat) : route .head f s = .status := by
  rw [route_kindStatus s (goodAddress_head.mpr ⟨hs, .inl hd⟩) hk, hd, hc]
  simp

theorem route_mgmt {f : Frame} (s : State) (hs : isStation f.src = true) (hd : f.dst = 0) (hk : f.kind = kindMgmt) :
    route .station f s = .mgmt := by
  rw [route_kindMgmt s (goodAddress_station.mpr ⟨hs, .inl hd⟩) hk, hd]
  rfl

theorem isHead_ne_zero {a : Byte} (h : isHead a = true) : a ≠ 0 := by
  rintro rfl
  revert h
  decide

theorem isStation_ne_zero {a : Byte} (h : isStation a = true) : a ≠ 0 := by
  rintro rfl
  revert h
  decide

theorem route_command {f : Frame} (s : State) (hs : isStation f.src = true) (hd : isHead f.dst = true)
    (hk : f.kind = kindCommand) : route .station f s = routeCommand f s := by
  have hz : (f.dst == 0) = false := beq_eq_false_iff_ne.mpr (isHead_ne_zero hd)
  rw [route_kindCommand s (goodAddress_station.mpr ⟨hs, .inr hd⟩) hk, hz]
  rfl

/-- A foreign frame across the part is forwarded (R20). -/
theorem route_foreign {p : Port} {f : Frame} (s : State) (ha : goodAddress p f = true) (hz : f.dst ≠ 0)
    (hk : f.kind = 0 ∨ 0x0C < f.kind.toNat) : route p f s = .forwarded := by
  obtain ⟨h1, h2, h3, h4, h5⟩ := unknownKind hk
  rw [route_goodAddress s ha, h1]
  simp only [h2, h3, h4, h5, hz, if_false, Bool.false_eq_true]

/-- The Router takes the oldest frame, when it decides so on it (R12). -/
theorem taken_eq {p : Port} {r : Route} {f : Frame} {s : State} (hf : (s.port p).fifo.head? = some f)
    (hr : route p f s = r) : taken p r s = some (f, s.dropFirst p) := by
  obtain ⟨rest, h⟩ := List.head?_eq_some_iff.mp hf
  simp only [taken, h, hr, if_true, State.dropFirst, List.tail_cons]

theorem exec_misdirected {p : Port} {f : Frame} {s : State} (hf : (s.port p).fifo.head? = some f)
    (hr : route p f s = .misdirected) : exec (.misdirectedFrame p) s =
      .next ((s.dropFirst p).countPort p fun c => { c with misdirected := c.misdirected + 1 }) := by
  simp only [exec, execMisdirectedFrame, taken_eq hf hr]

theorem exec_forwarded {p : Port} {f : Frame} {s : State} (hf : (s.port p).fifo.head? = some f)
    (hr : route p f s = .forwarded) :
    exec (.forwardedFrame p) s = .next (offerCounted (otherPort p) f (s.dropFirst p)) := by
  simp only [exec, execForwardedFrame, taken_eq hf hr]

theorem dropFirst_otherPort (p : Port) (s : State) : (s.dropFirst p).port (otherPort p) = s.port (otherPort p) :=
  port_setPort_other _ _ _

theorem quiet_dropFirst {p q : Port} {s : State} (h : quiet s q) : quiet (s.dropFirst p) q := by
  cases p <;> cases q <;> exact h

/-- Without a valid bank no head is the drive cabinet (R50). -/
theorem cabinetNode_invalid {s : State} (h : s.banks.valid = false) : cabinetNode s = none := by
  simp [cabinetNode, h]

theorem routeCommand_invalid {s : State} (f : Frame) (h : s.banks.valid = false) : routeCommand f s = .misdirected := by
  simp only [routeCommand, cabinetNode_invalid h]

/-- A COMMAND for another head, or with another code than START and STOP, is forwarded (R19; log entry 41). -/
theorem routeCommand_forwarded {f : Frame} {s : State} {n : Nat} (hn : cabinetNode s = some n)
    (h : f.dst.toNat ≠ n ∨ f.payload.head? ≠ some 0x01 ∧ f.payload.head? ≠ some 0x02) :
    routeCommand f s = .forwarded := by
  simp only [routeCommand, hn]
  by_cases hd : f.dst.toNat = n
  · obtain ⟨h1, h2⟩ := h.resolve_left (fun k => k hd)
    cases hp : f.payload with
    | nil => simp
    | cons b l =>
      rw [hp, List.head?_cons] at h1 h2
      simp only [ne_eq, Option.some.injEq] at h1 h2
      simp only [hd, bne_self_eq_false, Bool.false_eq_true, if_false, h1, h2]
  · simp [hd]

/-- The addresses that fail the check of R13, port by port. -/
theorem goodAddress_false {p : Port} {f : Frame}
    (h : p = .head ∧ ¬ (1 ≤ f.src.toNat ∧ f.src.toNat ≤ 47) ∨ p = .station ∧ f.src ≠ 61 ∧ f.src ≠ 62 ∨
      (48 ≤ f.dst.toNat ∧ f.dst.toNat ≤ 60) ∨ 63 ≤ f.dst.toNat ∨
      p = .head ∧ 1 ≤ f.dst.toNat ∧ f.dst.toNat ≤ 47 ∨ p = .station ∧ (f.dst = 61 ∨ f.dst = 62)) :
    goodAddress p f = false := by
  rw [Bool.eq_false_iff]
  intro ha
  cases p with
  | head =>
    obtain ⟨hs, hd⟩ := goodAddress_head.mp ha
    rw [isHead_iff] at hs
    rw [isStation_iff] at hd
    have hd' : f.dst.toNat = 0 ∨ f.dst.toNat = 61 ∨ f.dst.toNat = 62 := by
      rcases hd with e | e | e <;> simp [e]
    simp only [reduceCtorEq, false_and, true_and, false_or, or_false] at h
    omega
  | station =>
    obtain ⟨hs, hd⟩ := goodAddress_station.mp ha
    rw [isStation_iff] at hs
    rw [isHead_iff] at hd
    have hd' : f.dst.toNat = 0 ∨ 1 ≤ f.dst.toNat ∧ f.dst.toNat ≤ 47 := hd.imp_left (by rintro e; simp [e])
    simp only [reduceCtorEq, false_and, true_and, false_or] at h
    rcases h with ⟨h1, h2⟩ | h | h | e | e
    · exact hs.elim h1 h2
    · omega
    · omega
    · rw [e] at hd'; revert hd'; decide
    · rw [e] at hd'; revert hd'; decide

/-- The kinds that do not fit the port or the destination, or need a valid bank (R14, R16, R19). -/
theorem route_badKind {p : Port} {f : Frame} {s : State}
    (h : f.kind ∈ ([0x01, 0x05, 0x06, 0x07, 0x08, 0x09, 0x0B, 0x0C] : List Byte) ∨
      (f.kind = 0x02 ∨ f.kind = 0x03) ∧ (p = .station ∨ f.dst ≠ 0) ∨
      f.kind = 0x03 ∧ (s.banks.valid = false ∨ cabinetNode s ≠ some f.src.toNat) ∨
      f.kind = 0x0A ∧ (p = .head ∨ f.dst ≠ 0) ∨ f.kind = 0x04 ∧ (p = .head ∨ f.dst = 0 ∨ s.banks.valid = false) ∨
      f.dst = 0 ∧ (f.kind = 0 ∨ 0x0C < f.kind.toNat)) (ha : goodAddress p f = true) :
    route p f s = .misdirected := by
  rcases h with hk | ⟨hk | hk, hp⟩ | ⟨hk, hc⟩ | ⟨hk, hp⟩ | ⟨hk, hp⟩ | ⟨hz, hk⟩
  · have hpo : partOriginated f.kind = true := List.contains_iff_mem.mpr hk
    rw [route_goodAddress s ha, if_pos hpo]
  · rw [route_kindSample s ha hk]
    rcases hp with rfl | hp
    · rfl
    · rw [beq_eq_false_iff_ne.mpr hp, Bool.and_false]
      rfl
  · rw [route_kindStatus s ha hk]
    rcases hp with rfl | hp
    · rfl
    · rw [beq_eq_false_iff_ne.mpr hp, Bool.and_false, Bool.false_and]
      rfl
  · have hc' : (cabinetNode s == some f.src.toNat) = false := by
      rcases hc with hv | hc
      · rw [cabinetNode_invalid hv]; rfl
      · exact beq_eq_false_iff_ne.mpr hc
    rw [route_kindStatus s ha hk, hc', Bool.and_false]
    rfl
  · rw [route_kindMgmt s ha hk]
    rcases hp with rfl | hp
    · rfl
    · rw [beq_eq_false_iff_ne.mpr hp, Bool.and_false]
      rfl
  · rw [route_kindCommand s ha hk]
    rcases hp with rfl | hz | hv
    · rfl
    · simp [hz]
    · rw [routeCommand_invalid f hv, ite_self]
  · obtain ⟨h1, h2, h3, h4, h5⟩ := unknownKind hk
    simp only [route_goodAddress s ha, h1, h2, h3, h4, h5, if_false, Bool.false_eq_true, if_pos hz]

/-- Settles O8: the Router's decision clause by clause, and then the offer to the other port. -/
theorem framesDiscardedOrForwarded : Obligations.FramesDiscardedOrForwarded := by
  unfold Obligations.FramesDiscardedOrForwarded
  refine ⟨fun p f rest s hf h => ?_, fun p f rest s hf h => ?_⟩
  · have hf' : (s.port p).fifo.head? = some f := by rw [hf]; rfl
    refine exec_misdirected hf' (route_misdirected fun ha => ?_)
    rcases h with h | h | h | h | h | h | h
    · exact absurd ha (by rw [goodAddress_false (.inl h)]; decide)
    · exact absurd ha (by rw [goodAddress_false (.inr (.inl h))]; decide)
    · exact absurd ha (by rw [goodAddress_false (.inr (.inr (.inl h)))]; decide)
    · exact absurd ha (by rw [goodAddress_false (.inr (.inr (.inr (.inl h))))]; decide)
    · exact absurd ha (by rw [goodAddress_false (.inr (.inr (.inr (.inr (.inl h)))))]; decide)
    · exact absurd ha (by rw [goodAddress_false (.inr (.inr (.inr (.inr (.inr h)))))]; decide)
    · exact route_badKind h ha
  · have hf' : (s.port p).fifo.head? = some f := by rw [hf]; rfl
    have hr : route p f s = .forwarded := by
      rcases h with ⟨hk, ⟨rfl, hs, hd⟩ | ⟨rfl, hs, hd⟩⟩ | ⟨rfl, hs, hd, hk, n, hn, hc⟩
      · exact route_foreign s (goodAddress_head.mpr ⟨hs, .inr hd⟩) (isStation_ne_zero hd) hk
      · exact route_foreign s (goodAddress_station.mpr ⟨hs, .inr hd⟩) (isHead_ne_zero hd) hk
      · rw [route_command s hs hd hk, routeCommand_forwarded hn hc]
    rw [exec_forwarded hf' hr]
    refine ⟨fun hq => ?_, fun hb => ?_⟩
    · rw [offerCounted_quiet f (quiet_dropFirst hq), dropFirst_otherPort]
    · have hb' : ((s.dropFirst p).port (otherPort p)).tx ≠ .idle := by rw [dropFirst_otherPort]; exact hb
      rw [offerCounted_busy f hb', dropFirst_otherPort]

end Sys2Proof.Machine
end

section
/-! Ticks, guidance, certificates and the START and STOP of a side: the operations at a quiet port and at a busy one,
and the commands that call them. -/

namespace Sys2Proof.Machine

/-! ### Reset -/

theorem reset_qty (q : Quantity) : State.reset.qty q = QuantityState.reset := by cases q <;> rfl

/-- Settles O2: each value is that of the reset state. -/
theorem powerOnResetValues : Obligations.PowerOnResetValues := by
  unfold Obligations.PowerOnResetValues
  intro s
  have ports : ∀ p, (State.reset.port p) = PortState.reset := fun p => by cases p <;> rfl
  have cads : ∀ c, (State.reset.cad c).acc = 0 ∧ (State.reset.cad c).tick = 0 ∧
      (State.reset.cad c).running = false ∧ (State.reset.cad c).openTick = none := fun c => by
    cases c <;> exact ⟨rfl, rfl, rfl, rfl⟩
  have sides : ∀ sd, State.reset.roller sd = RollerSide.reset := fun sd => by cases sd <;> rfl
  refine ⟨_, rfl, rfl, fun p => ?_, rfl, rfl, rfl, rfl, rfl, cads, rfl, rfl, rfl, rfl, fun q => ?_, rfl, rfl, rfl, rfl,
    rfl, rfl, rfl, rfl, rfl, rfl, rfl, rfl, rfl, rfl, rfl, rfl, rfl, rfl, rfl, rfl, fun sd => ?_, rfl, rfl, rfl, rfl,
    rfl, rfl, rfl, rfl, rfl, rfl, rfl, rfl, rfl⟩
  · rw [show ({ State.reset with pending := s.pending } : State).port p = PortState.reset from
      (by cases p <;> rfl : _ = State.reset.port p).trans (ports p)]
    exact ⟨rfl, rfl, rfl, rfl⟩
  · rw [show ({ State.reset with pending := s.pending } : State).qty q = QuantityState.reset from reset_qty q]
    exact ⟨rfl, rfl, rfl, rfl, rfl, rfl, rfl, rfl, rfl⟩
  · rw [show ({ State.reset with pending := s.pending } : State).roller sd = RollerSide.reset from sides sd]
    exact ⟨rfl, rfl, rfl, rfl, rfl, rfl, rfl, rfl, rfl, rfl, rfl, rfl⟩

/-! ### Tick issues -/

theorem quiet_setCad {c : Cadence} {x : CadenceState} {s : State} {p : Port} (h : quiet s p) :
    quiet (s.setCad c x) p := by cases c <;> cases p <;> exact h

@[simp] theorem setCad_head (c : Cadence) (x : CadenceState) (s : State) : (s.setCad c x).head = s.head := by
  cases c <;> rfl

/-- The cadence after item 2 of R25. -/
def nextTick (x : CadenceState) (skipped : Bool) : CadenceState :=
  { x with tick := x.tick + 1, openTick := some { skipped, void := false } }

theorem issueTick_eq (c : Cadence) (s : State) : issueTick c s =
    let r := offer .head (tickFrame c ((s.cad c).tick + 1)) (s.setCad c (nextTick (s.cad c) false))
    if r.2 then r.1
    else countSkipped c (r.1.setCad c { r.1.cad c with openTick := some { skipped := true, void := false } }) := rfl

theorem issueTick_quiet {c : Cadence} {s : State} (h : quiet s .head) : issueTick c s =
    { s.setCad c (nextTick (s.cad c) false) with
      head := { s.head with tx := .taken (tickFrame c ((s.cad c).tick + 1)) } } := by
  have hq : quiet (s.setCad c (nextTick (s.cad c) false)) .head := quiet_setCad h
  simp only [issueTick_eq, offer_head_quiet _ hq, if_true]
  cases c <;> rfl

theorem issueTick_busy {c : Cadence} {s : State} (h : s.head.tx ≠ .idle) : issueTick c s =
    if s.head.queue.length < 16 then
      { s.setCad c (nextTick (s.cad c) false) with
        head := { s.head with queue := s.head.queue ++ [tickFrame c ((s.cad c).tick + 1)] } }
    else countSkipped c (s.setCad c (nextTick (s.cad c) true)) := by
  have hb : (s.setCad c (nextTick (s.cad c) false)).head.tx ≠ .idle := by rw [setCad_head]; exact h
  simp only [issueTick_eq, offer_head_busy _ hb, setCad_head]
  split
  · rfl
  · simp only [Bool.false_eq_true, if_false, cad_setCad, setCad_setCad, nextTick]

/-- A carry with no open tick issues the next tick and closes nothing (R25). -/
theorem exec_tickIssue_first {c : Cadence} {o : CloseOrder} {s : State} (hr : (s.cad c).running = true)
    (hc : (s.cad c).carryDue = true) (ho : (s.cad c).openTick = none) :
    exec (.tickIssue c o) s = .next (issueTick c (s.setCad c { s.cad c with carryDue := false })) := by
  simp only [exec, execTickIssue, tickEvent, hr, hc, ho, Bool.and_self, if_true]

/-- Settles O15, by the equations of the tick issue. -/
theorem firstTickIssued : Obligations.FirstTickIssued := by
  unfold Obligations.FirstTickIssued
  intro c o s hr hc ho
  rw [exec_tickIssue_first hr hc ho]
  refine ⟨fun h => ?_, fun h => ?_⟩
  · rw [issueTick_quiet (quiet_setCad h)]
    cases c <;> rfl
  · rw [issueTick_busy (by rw [setCad_head]; exact h)]
    simp only [setCad_head, cad_setCad, setCad_setCad]
    by_cases hl : s.head.queue.length < 16
    · rw [if_pos hl, if_pos hl, decide_eq_false (by omega : ¬ 16 ≤ s.head.queue.length)]
      cases c
      · rfl
      · rfl
    · rw [if_neg hl, if_neg hl, decide_eq_true (by omega : 16 ≤ s.head.queue.length)]
      cases c
      · rfl
      · rfl

/-! ### Guidance -/

theorem offerGuide_quiet {s : State} (g : GuideMessage) (h : quiet s .head) : offerGuide g s =
    { s with head := { s.head with tx := .taken (guideFrame g s) },
             engine := { s.engine with pendingGuide := none } } := by
  simp only [offerGuide, offer_head_quiet _ h, if_true]

theorem offerGuide_busy {s : State} (g : GuideMessage) (h : s.head.tx ≠ .idle) : offerGuide g s =
    if s.head.queue.length < 16 then
      { s with head := { s.head with queue := s.head.queue ++ [guideFrame g s] },
               engine := { s.engine with pendingGuide := none } }
    else { s with engine := { s.engine with pendingGuide := some g } } := by
  simp only [offerGuide, offer_head_busy _ h]
  split
  · rfl
  · rfl

theorem hasRoom_quiet {s : State} (h : quiet s .head) : hasRoom .head s = true := by
  obtain ⟨-, hq, -, -⟩ := h
  simp [hasRoom, queueCap, hq]

/-- Settles O48: an entry's age, and the offer of a pending message at a quiet port and at a busy one. -/
theorem historyAgesAndGuidanceWaits : Obligations.HistoryAgesAndGuidanceWaits := by
  unfold Obligations.HistoryAgesAndGuidanceWaits
  refine ⟨fun sd s => ?_, fun g s hg => ⟨fun h => ?_, fun h => ?_⟩⟩
  · have age : ∀ e : HistoryEntry, ageEntry s.now e =
        if 600000 ≤ (s.clock.laneTime - e.time).toNat then { e with aged := true } else e := fun e => by
      unfold ageEntry elapsedSince State.now
      split
      next h => rw [decide_eq_true h, Bool.or_true]
      next h => rw [decide_eq_false h, Bool.or_false]
    simp only [exec, execHistoryEntryAged, ageHistory, funext age]
  · simp only [exec, execPendingGuideOffer, pendingGuideOffered, hg, hasRoom_quiet h, if_true, offerGuide_quiet g h]
  · simp only [exec, execPendingGuideOffer, pendingGuideOffered, hg, offerGuide_busy g h]
    by_cases hl : s.head.queue.length < 16
    · rw [if_pos (show hasRoom .head s = true from decide_eq_true hl), if_pos hl, if_pos hl]
    · rw [if_neg (show ¬ hasRoom .head s = true from fun k => hl (of_decide_eq_true k)), if_neg hl]

/-! ### Certificates -/

theorem cut_length (k : Nat) (l : List Byte) : (cut k l).length ≤ k := by
  induction k generalizing l with
  | zero => exact Nat.le_refl 0
  | succ k ih =>
    unfold cut
    split
    · simp
    · simpa using ih _

/-- A certificate has at most four segments (R167). -/
theorem segments_length (c : Certificate) : (segments c).length ≤ 4 := by
  rw [segments, List.length_mapIdx]
  exact cut_length 4 (certRecord c)

/-- The station port after frames joined its queue. -/
def stationQueued (s : State) (l : List Frame) : State :=
  { s with station := { s.station with queue := s.station.queue ++ l } }

/-- Frames offered one after another to a busy station port with room for them all (R5). -/
theorem foldl_offer_busy (l : List Frame) {s : State} (h : s.station.tx ≠ .idle)
    (hl : s.station.queue.length + l.length ≤ 32) :
    l.foldl (fun t f => (offer .station f t).1) s = stationQueued s l := by
  induction l generalizing s with
  | nil => simp [stationQueued]
  | cons f rest ih =>
    rw [List.length_cons] at hl
    have hroom : s.station.queue.length < 32 := by omega
    rw [List.foldl_cons, offer_station_busy f h, if_pos hroom, ih]
    · simp [stationQueued]
    · exact h
    · simp only [List.length_append, List.length_singleton]
      omega

/-- The certificate delivery after a send at the present lane time (R167). -/
def sentCerts (s : State) : CertState :=
  { s.certs with due := false, sendCount := min (s.certs.sendCount + 1) 255, lastSend := some s.clock.laneTime }

/-- The content of the CERT_SENT notice of a send. -/
def sentFields (c : Certificate) (s : State) : List Byte :=
  0 :: (word32 c.number ++ BitVec.ofNat 8 (min (s.certs.sendCount + 1) 255) :: word32 s.clock.laneTime)

theorem certSentNotice_eq (number : Word32) (count : Nat) (s : State) : certSentNotice number count s =
    notice 0x0C (0 :: (word32 number ++ BitVec.ofNat 8 count :: word32 s.clock.laneTime)) s := by
  simp [certSentNotice, be8, State.now]

/-- A send of the oldest certificate: when it is due and all its segments have room (R167). -/
theorem certSendIfRoom_cons {c : Certificate} {rest : List Certificate} {s : State}
    (hc : s.certs.queue = c :: rest) : certSendIfRoom s =
      if s.certs.due = true ∧ s.station.queue.length + (segments c).length ≤ 32 then
        let t := (segments c).foldl (fun t f => (offer .station f t).1) s
        certSentNotice c.number (min (s.certs.sendCount + 1) 255) { t with certs := { t.certs with
          due := false, sendCount := min (s.certs.sendCount + 1) 255, lastSend := some s.clock.laneTime } }
      else s := by
  simp only [certSendIfRoom, hc]
  exact if_congr (by rw [Bool.and_eq_true, decide_eq_true_iff]; rfl) rfl rfl

theorem certSendIfRoom_full {c : Certificate} {rest : List Certificate} {s : State} (hc : s.certs.queue = c :: rest)
    (h : 32 < s.station.queue.length + (segments c).length) : certSendIfRoom s = s := by
  rw [certSendIfRoom_cons hc, if_neg (by omega)]

/-- A due send with room, once its segments' offers are known to replace no more than the station port (R167). -/
theorem certSendIfRoom_sends {c : Certificate} {rest : List Certificate} {s : State} {station : PortState}
    (hc : s.certs.queue = c :: rest) (hd : s.certs.due = true)
    (hl : s.station.queue.length + (segments c).length ≤ 32)
    (hs : (segments c).foldl (fun t f => (offer .station f t).1) s = { s with station }) :
    certSendIfRoom s = notice 0x0C (sentFields c s) { s with station, certs := sentCerts s } := by
  rw [certSendIfRoom_cons hc, if_pos ⟨hd, hl⟩, hs]
  exact certSentNotice_eq _ _ _

theorem certSendIfRoom_busy {c : Certificate} {rest : List Certificate} {s : State}
    (hc : s.certs.queue = c :: rest) (hd : s.certs.due = true) (hb : s.station.tx ≠ .idle)
    (hl : s.station.queue.length + (segments c).length ≤ 32) :
    certSendIfRoom s = notice 0x0C (sentFields c s) { s with
      station := { s.station with queue := s.station.queue ++ segments c }, certs := sentCerts s } :=
  certSendIfRoom_sends hc hd hl (foldl_offer_busy _ hb hl)

/-- At a quiet station port the first segment is taken at once, and the others wait (R6, R167). -/
theorem certSendIfRoom_quiet {c : Certificate} {rest : List Certificate} {s : State} {first : Frame}
    {more : List Frame} (hc : s.certs.queue = c :: rest) (hd : s.certs.due = true) (hq : quiet s .station)
    (hg : segments c = first :: more) :
    certSendIfRoom s = notice 0x0C (sentFields c s) { s with
      station := { s.station with tx := .taken first, queue := more }, certs := sentCerts s } := by
  have he : s.station.queue = [] := hq.2
  have h4 := segments_length c
  refine certSendIfRoom_sends hc hd (by rw [he, List.length_nil]; omega) ?_
  have hm : more.length ≤ 4 := by
    rw [hg, List.length_cons] at h4
    omega
  rw [hg, List.foldl_cons, offer_station_quiet first hq, foldl_offer_busy more]
  · simp [stationQueued, he]
  · exact fun h => nomatch h
  · simp only [he, List.length_nil]
    omega

theorem resendDue_eq {c : Certificate} {rest : List Certificate} {sent : Word32} {s : State}
    (hc : s.certs.queue = c :: rest) (hd : s.certs.due = false) (hs : s.certs.lastSend = some sent) :
    resendDue s = if 10000 ≤ (s.clock.laneTime - sent).toNat then
      certSendIfRoom { s with certs := { s.certs with due := true } } else s := by
  simp only [resendDue, hc, hs, hd, Bool.not_false, Bool.true_and, decide_eq_true_eq]
  rfl

/-- Settles O55, by the equations of a send and of a resend. -/
theorem certificateSent : Obligations.CertificateSent := by
  unfold Obligations.CertificateSent
  intro c rest s hc
  refine ⟨fun hd => ⟨fun first more hg hq => ?_, fun hb hl => ?_⟩, fun h => ?_, fun sent hd hs => ⟨fun h => ?_,
    fun h => ?_⟩⟩
  · exact congrArg Host.Outcome.next (certSendIfRoom_quiet hc hd hq hg)
  · exact congrArg Host.Outcome.next (certSendIfRoom_busy hc hd hb hl)
  · exact congrArg Host.Outcome.next (certSendIfRoom_full hc h)
  · exact congrArg Host.Outcome.next ((resendDue_eq hc hd hs).trans (if_pos h))
  · exact congrArg Host.Outcome.next ((resendDue_eq hc hd hs).trans (if_neg (by omega)))

end Sys2Proof.Machine
end

section
/-! The commands of the Roller Supervisor: a station START and STOP (R19, R108 to R112) and the test of a held START
(R110). -/

namespace Sys2Proof.Machine

/-! ### COMMANDs and requests at the front of the FIFO -/

theorem isCabinetCommand_iff {s : State} {f : Frame} {payload : List Byte} :
    isCabinetCommand s f payload = true ↔ isStation f.src = true ∧ f.kind = kindCommand ∧ isHead f.dst = true ∧
      cabinetNode s = some f.dst.toNat ∧ f.payload = payload := by
  simp only [isCabinetCommand, Bool.and_eq_true, beq_iff_eq]
  tauto

/-- A COMMAND START for the drive cabinet is the Roller Supervisor's (R19). -/
theorem routeCommand_start {f : Frame} {s : State} (hn : cabinetNode s = some f.dst.toNat)
    (h : f.payload.head? = some 0x01) : routeCommand f s = .start := by
  obtain ⟨l, hl⟩ := List.head?_eq_some_iff.mp h
  simp only [routeCommand, hn, hl, bne_self_eq_false, Bool.false_eq_true, if_false, if_true]

theorem routeCommand_stop {f : Frame} {s : State} (hn : cabinetNode s = some f.dst.toNat)
    (h : f.payload.head? = some 0x02) : routeCommand f s = .stop := by
  obtain ⟨l, hl⟩ := List.head?_eq_some_iff.mp h
  simp only [routeCommand, hn, hl, bne_self_eq_false, Bool.false_eq_true, if_false]
  rfl

theorem sideOfByte_sideByte (sd : Side) : sideOfByte (sideByte sd) = some sd := by cases sd <;> rfl

theorem sideOfByte_none {b : Byte} (h : ∀ sd, b ≠ sideByte sd) : sideOfByte b = none := by
  rw [sideOfByte, if_neg (show ¬ b = 0 from h .left), if_neg (show ¬ b = 1 from h .right)]

/-- A bad length or a bad side fails the content check (R19). -/
theorem commandSide_none {c : Byte} {l : List Byte} (hh : l.head? = some c) (h : ∀ sd, l ≠ [c, sideByte sd]) :
    commandSide l = none := by
  obtain ⟨rest, rfl⟩ := List.head?_eq_some_iff.mp hh
  match rest with
  | [] => rfl
  | [b] => exact sideOfByte_none fun sd e => h sd (by rw [e])
  | _ :: _ :: _ => rfl

theorem exec_stationStart {f : Frame} {s : State} {sd : Side} (hf : s.station.fifo.head? = some f)
    (hr : route .station f s = .start) (hp : commandSide f.payload = some sd) : exec .stationStart s =
      .next (takeReports (judgeStart .station sd (s.dropFirst .station)).2
        (judgeStart .station sd (s.dropFirst .station)).1) := by
  simp only [exec, execStationStart, taken_eq (p := .station) hf hr, hp]

theorem exec_stationStart_bad {f : Frame} {s : State} (hf : s.station.fifo.head? = some f)
    (hr : route .station f s = .start) (hp : commandSide f.payload = none) :
    exec .stationStart s = .next (contentError .station (s.dropFirst .station)) := by
  simp only [exec, execStationStart, taken_eq (p := .station) hf hr, hp]

theorem exec_stationStop {f : Frame} {s : State} {sd : Side} (hf : s.station.fifo.head? = some f)
    (hr : route .station f s = .stop) (hp : commandSide f.payload = some sd) : exec .stationStop s =
      .next (takeReports (stationStop sd (s.dropFirst .station)).2 (stationStop sd (s.dropFirst .station)).1) := by
  simp only [exec, execStationStop, taken_eq (p := .station) hf hr, hp]

theorem exec_stationStop_bad {f : Frame} {s : State} (hf : s.station.fifo.head? = some f)
    (hr : route .station f s = .stop) (hp : commandSide f.payload = none) :
    exec .stationStop s = .next (contentError .station (s.dropFirst .station)) := by
  simp only [exec, execStationStop, taken_eq (p := .station) hf hr, hp]

/-! ### Reports -/

theorem exitReady_eq {s : State} (h : s.lane.exitWait = false) : exitReady s = s := by simp [exitReady, h]

theorem takeReports_nil {s : State} (h : s.lane.exitWait = false) : takeReports [] s = s := exitReady_eq h

theorem runningKind_idle {s : State} (h : s.engine.phase ≠ .running) (k : StepKind) : runningKind s k = false := by
  simp [runningKind, h]

theorem measuringRuns_idle {s : State} (h : s.engine.phase ≠ .running) : measuringRuns s = false := by
  simp [measuringRuns, h]

/-- With no step running a report changes nothing (R92 to R95). -/
theorem takeReport_idle {s : State} (h : s.engine.phase ≠ .running) (r : Report) : takeReport r s = s := by
  have mark : ∀ sd m, spinMark sd m s = false := fun sd m => by simp [spinMark, runningKind_idle h]
  cases r <;> simp only [takeReport, mark, runningKind_idle h, measuringRuns_idle h, Bool.false_and,
    Bool.false_eq_true, if_false]

theorem takeReports_idle {s : State} (h : s.engine.phase ≠ .running) (he : s.lane.exitWait = false)
    (l : List Report) : takeReports l s = s := by
  have fold : l.foldl (fun t r => takeReport r t) s = s := by
    induction l with
    | nil => rfl
    | cons r rest ih => rw [List.foldl_cons, takeReport_idle h, ih]
  rw [takeReports, fold, exitReady_eq he]

/-! ### What a notice and a STOP leave -/

theorem notice_lane (code : Byte) (l : List Byte) (s : State) : (notice code l s).lane = s.lane := by
  obtain ⟨x, n, e, -⟩ := notice_only code l s
  rw [e]

theorem notice_engine (code : Byte) (l : List Byte) (s : State) : (notice code l s).engine = s.engine := by
  obtain ⟨x, n, e, -⟩ := notice_only code l s
  rw [e]

theorem policyNotice_lane (sd : Side) (o : Origin) (a : PolicyAction) (r : Option PolicyReason) (s : State) :
    (policyNotice sd o a r s).lane = s.lane := notice_lane _ _ _

theorem policyNotice_engine (sd : Side) (o : Origin) (a : PolicyAction) (r : Option PolicyReason) (s : State) :
    (policyNotice sd o a r s).engine = s.engine := notice_engine _ _ _

theorem offerStop_lane (sd : Side) (s : State) : (offerStop sd s).1.lane = s.lane := by
  obtain ⟨x, u, v, b, e, -⟩ := offerStop_only sd s
  rw [e]
  rfl

theorem offerStop_engine (sd : Side) (s : State) : (offerStop sd s).1.engine = s.engine := by
  obtain ⟨x, u, v, b, e, -⟩ := offerStop_only sd s
  rw [e]
  rfl

/-- An offered STOP leaves all of the side but its outstanding mark. -/
theorem offerStop_roller (sd : Side) (s : State) :
    ∃ b, (offerStop sd s).1.roller sd = { s.roller sd with outstanding := b } := by
  obtain ⟨x, u, v, b, e⟩ := offerStop_stopping sd s
  exact ⟨b, by rw [e, stopping_roller]⟩

/-- The station transmitter does not look at the rollers. -/
theorem takeStation_rollers (s : State) (x : Rollers) :
    takeStation { s with rollers := x } = { takeStation s with rollers := x } := by
  unfold takeStation
  cases s.station.tx with
  | idle => cases s.station.queue <;> rfl
  | taken f => rfl
  | sending f l => rfl

theorem notice_rollers (code : Byte) (l : List Byte) (s : State) (x : Rollers) :
    notice code l { s with rollers := x } = { notice code l s with rollers := x } := by
  unfold notice offerCounted offer
  by_cases h : hasRoom .station s = true
  · rw [if_pos h, if_pos (show hasRoom .station { s with rollers := x } = true from h)]
    exact takeStation_rollers (s.setPort .station { s.station with
      queue := s.station.queue ++ [originate 62 kindNotice (code :: l)] }) x
  · rw [if_neg h, if_neg (show ¬ hasRoom .station { s with rollers := x } = true from h)]
    rfl

theorem policyNotice_setRoller (sd sd' : Side) (o : Origin) (a : PolicyAction) (r : Option PolicyReason) (s : State)
    (x : RollerSide) : policyNotice sd o a r (s.setRoller sd' x) = (policyNotice sd o a r s).setRoller sd' x := by
  obtain ⟨y, n, e, -⟩ := policyNotice_only sd o a r s
  have h := notice_rollers 0x06 (word32 s.now ++ be8 (sideCode sd) ++ be8 (originCode o) ++
    be8 (policyActionCode a) ++ optional (fun r => be8 (policyReasonCode r)) r) s (s.setRoller sd' x).rollers
  refine h.trans ?_
  rw [show notice 0x06 _ s = _ from e, e]
  rfl

/-! ### Starting a side -/

theorem quiet_setRoller {sd : Side} {r : RollerSide} {s : State} {p : Port} (h : quiet s p) :
    quiet (s.setRoller sd r) p := by cases p <;> exact h

/-- A side whose START has been offered (R109). -/
def RollerSide.started (r : RollerSide) : RollerSide :=
  { r with state := .spinningUp, held := none, testDue := false, outstanding := true, sendTime := none }

/-- A side whose START was refused by a full queue (R109). -/
def RollerSide.unstarted (r : RollerSide) : RollerSide :=
  { r with state := .stopped, held := none, testDue := false, outstanding := false, sendTime := none }

theorem unstarted_of_stopped {r : RollerSide} (h : r.state = .stopped) :
    r.unstarted = { r with held := none, testDue := false, outstanding := false, sendTime := none } := by
  simp only [RollerSide.unstarted, h]

theorem offerStart_eq (o : Origin) (sd : Side) (s : State) : offerStart o sd s =
    let r := offer .head (startFrame ((cabinetNode s).getD 0) sd) (s.setRoller sd (s.roller sd).started)
    if r.2 then (r.1, [])
    else
      let t := r.1.setRoller sd (r.1.roller sd).unstarted
      (if o == .station then policyNotice sd o .refused (some .queueFull) t else t, [.refused sd]) := rfl

theorem offerStart_quiet {o : Origin} {sd : Side} {s : State} (h : quiet s .head) : offerStart o sd s =
    ({ s.setRoller sd (s.roller sd).started with
        head := { s.head with tx := .taken (startFrame ((cabinetNode s).getD 0) sd) } }, []) := by
  rw [offerStart_eq, offer_head_quiet _ (quiet_setRoller h)]
  rfl

theorem offer_setRoller_busy {sd : Side} {s : State} (r : RollerSide) (f : Frame) (h : s.head.tx ≠ .idle) :
    offer .head f (s.setRoller sd r) = if s.head.queue.length < 16 then
      ({ s.setRoller sd r with head := { s.head with queue := s.head.queue ++ [f] } }, true)
    else (s.setRoller sd r, false) := offer_head_busy (s := s.setRoller sd r) f h

theorem offerStart_busy {o : Origin} {sd : Side} {s : State} (h : s.head.tx ≠ .idle)
    (hl : s.head.queue.length < 16) : offerStart o sd s =
    ({ s.setRoller sd (s.roller sd).started with
        head := { s.head with queue := s.head.queue ++ [startFrame ((cabinetNode s).getD 0) sd] } }, []) := by
  rw [offerStart_eq, offer_setRoller_busy _ _ h, if_pos hl]
  rfl

theorem offerStart_full {o : Origin} {sd : Side} {s : State} (h : s.head.tx ≠ .idle)
    (hl : 16 ≤ s.head.queue.length) : offerStart o sd s =
    (if o == .station then policyNotice sd o .refused (some .queueFull) (s.setRoller sd (s.roller sd).unstarted)
      else s.setRoller sd (s.roller sd).unstarted, [.refused sd]) := by
  rw [offerStart_eq, offer_setRoller_busy _ _ h, if_neg (Nat.not_lt.mpr hl)]
  simp only [Bool.false_eq_true, if_false, setRoller_setRoller, roller_setRoller]
  rfl

theorem judgeStart_refused {o : Origin} {sd : Side} {s : State} {why : PolicyReason}
    (h : refusal o sd s = some why) : judgeStart o sd s =
      if o == .station then (policyNotice sd o .refused (some why) s, []) else (s, [.refused sd]) := by
  simp only [judgeStart, h]

theorem judgeStart_permitted {o : Origin} {sd : Side} {s : State} (h : refusal o sd s = none)
    (hp : permitted s sd = true) : judgeStart o sd s = offerStart o sd s := by
  simp only [judgeStart, h, hp, if_true]

theorem judgeStart_held {o : Origin} {sd : Side} {s : State} (h : refusal o sd s = none)
    (hp : permitted s sd = false) : judgeStart o sd s =
      (policyNotice sd o .held (some .startRules) (s.setRoller sd { s.roller sd with
        state := .held, held := some { origin := o, since := s.now }, testDue := false }), []) := by
  simp only [judgeStart, h, hp, Bool.false_eq_true, if_false]

theorem interlockOpen_iff (s : State) : interlockOpen s = true ↔
    s.lane.state = .manual ∨ s.lane.state = .testing ∧ runningKind s .spin = true := by simp [interlockOpen]

/-- The first check of R108 that a station START fails, as the rule lists them. -/
theorem refusal_station (sd : Side) (s : State) : refusal .station sd s =
    if s.rollers.estop = true then some .estop
    else if interlockOpen s = false then some .interlock
    else if (s.roller sd).overtemp = true then some .overtemperature
    else if (s.roller sd).state = .held then some .alreadyHeld
    else if (s.roller sd).state = .stopped then none
    else some .notStopped := by
  unfold refusal
  cases interlockOpen s
  · simp
  · cases (s.roller sd).state <;> simp

/-- A START of the sequence is not subject to the interlock (R108). -/
theorem refusal_sequence (sd : Side) (s : State) : refusal .sequence sd s =
    if s.rollers.estop = true then some .estop
    else if (s.roller sd).overtemp = true then some .overtemperature
    else if (s.roller sd).state = .held then some .alreadyHeld
    else if (s.roller sd).state = .stopped then none
    else some .notStopped := by
  unfold refusal
  cases (s.roller sd).state <;> simp

/-- Settles O39: the checks of R108 in order, and then what becomes of a START that passes them. -/
theorem stationStartJudged : Obligations.StationStartJudged := by
  unfold Obligations.StationStartJudged
  refine ⟨fun f s hf hs hk hd hc hh hbad => ?_, fun sd f s hf hcmd hexit => ?_⟩
  · exact exec_stationStart_bad hf ((route_command s hs hd hk).trans (routeCommand_start hc hh))
      (commandSide_none hh hbad)
  · obtain ⟨hs, hk, hd, hc, hp⟩ := isCabinetCommand_iff.mp hcmd
    have hh : f.payload.head? = some 0x01 := by rw [hp]; rfl
    have hside : commandSide f.payload = some sd := by rw [hp]; exact sideOfByte_sideByte sd
    have hexec := exec_stationStart hf ((route_command s hs hd hk).trans (routeCommand_start hc hh)) hside
    have href : refusal .station sd (s.dropFirst .station) = _ := refusal_station sd s
    have refused : ∀ why, refusal .station sd (s.dropFirst .station) = some why →
        exec .stationStart s = .next (policyNotice sd .station .refused (some why) (s.dropFirst .station)) := by
      intro why h
      rw [hexec, judgeStart_refused h]
      exact congrArg Host.Outcome.next
        (takeReports_nil ((congrArg LaneControl.exitWait (policyNotice_lane _ _ _ _ _)).trans hexit))
    dsimp only
    rw [← interlockOpen_iff]
    refine ⟨fun he => refused _ ?_, fun he hi => refused _ ?_, fun he hi ho => refused _ ?_,
      fun he hi ho hst => refused _ ?_, fun he hi ho hst => refused _ ?_, fun he hi ho hst hp => ?_,
      fun he hi ho hst hp => ?_⟩
    · rw [href]; simp [he]
    · rw [href]; simp [he, hi]
    · rw [href]; simp [he, hi, ho]
    · rw [href]; simp [he, hi, ho, hst]
    · rw [href]
      rcases hst with hst | hst | hst <;> simp [he, hi, ho, hst]
    · have hnone : refusal .station sd (s.dropFirst .station) = none := by rw [href]; simp [he, hi, ho, hst]
      rw [hexec, judgeStart_held hnone hp]
      exact congrArg Host.Outcome.next
        (takeReports_nil ((congrArg LaneControl.exitWait (policyNotice_lane _ _ _ _ _)).trans hexit))
    · have hnone : refusal .station sd (s.dropFirst .station) = none := by rw [href]; simp [he, hi, ho, hst]
      rw [hexec, judgeStart_permitted hnone hp]
      refine ⟨fun hq => ?_, fun hb hl => ?_, fun hb hl => ?_⟩
      · rw [offerStart_quiet (quiet_dropFirst hq)]
        exact congrArg Host.Outcome.next (takeReports_nil hexit)
      · rw [offerStart_busy (s := s.dropFirst .station) hb hl]
        exact congrArg Host.Outcome.next (takeReports_nil hexit)
      · rw [offerStart_full (s := s.dropFirst .station) hb hl,
          show (s.dropFirst .station).roller sd = s.roller sd from rfl, unstarted_of_stopped hst]
        rfl

/-- Settles O40: with no step running the reports of the STOP change nothing. -/
theorem stationStopTaken : Obligations.StationStopTaken := by
  unfold Obligations.StationStopTaken
  refine ⟨fun f s hf hs hk hd hc hh hbad => ?_, fun sd f s hf hcmd hexit hphase => ?_⟩
  · exact exec_stationStop_bad hf ((route_command s hs hd hk).trans (routeCommand_stop hc hh))
      (commandSide_none hh hbad)
  · obtain ⟨hs, hk, hd, hc, hp⟩ := isCabinetCommand_iff.mp hcmd
    have hh : f.payload.head? = some 0x02 := by rw [hp]; rfl
    have hside : commandSide f.payload = some sd := by rw [hp]; exact sideOfByte_sideByte sd
    have hexec := exec_stationStop hf ((route_command s hs hd hk).trans (routeCommand_stop hc hh)) hside
    have done : ∀ t l, stationStop sd (s.dropFirst .station) = (t, l) → t.lane = s.lane → t.engine = s.engine →
        exec .stationStop s = .next t := by
      intro t l e hlane hengine
      rw [hexec, e]
      exact congrArg Host.Outcome.next
        (takeReports_idle (by rw [hengine]; exact hphase) (by rw [hlane]; exact hexit) l)
    have hlane := offerStop_lane sd (s.dropFirst .station)
    have hengine := offerStop_engine sd (s.dropFirst .station)
    have hroller : (s.dropFirst .station).roller sd = s.roller sd := rfl
    refine ⟨fun hst => ?_, fun hst => ?_, fun hst => ?_, fun h hst hh => ?_⟩
    · refine done _ [] ?_ hlane hengine
      rcases hst with hst | hst <;> simp only [stationStop, hroller, hst]
    · refine done _ [.leftRunning sd] ?_ hlane hengine
      simp only [stationStop, hroller, hst]
      rfl
    · refine done _ (stationStop sd (s.dropFirst .station)).2 ?_ hlane hengine
      simp only [stationStop, hroller, hst]
      rfl
    · refine done _ [.refused sd, .standstill sd] ?_ ((policyNotice_lane _ _ _ _ _).trans hlane)
        ((policyNotice_engine _ _ _ _ _).trans hengine)
      obtain ⟨b, hb⟩ := offerStop_roller sd (s.dropFirst .station)
      simp only [stationStop, hroller, hst, cancelHeld, hb, hh, Option.elim_some]
      rfl

/-! ### The test of a held START -/

theorem quiet_policyNotice {sd : Side} {o : Origin} {a : PolicyAction} {r : Option PolicyReason} {s : State}
    (h : quiet s .head) : quiet (policyNotice sd o a r s) .head := by
  obtain ⟨x, n, e, -⟩ := policyNotice_only sd o a r s
  rw [e]
  exact h

theorem exitReady_moving {s : State} {sd : Side} (h : (s.roller sd).state ≠ .stopped) : exitReady s = s := by
  have moving : bothStopped s = false := by
    cases sd <;> simp [bothStopped, h]
  simp [exitReady, moving]

/-- Settles O42: the test of a due held START, by whether it is permitted and its origin's condition. -/
theorem heldStartTested : Obligations.HeldStartTested := by
  unfold Obligations.HeldStartTested
  intro sd h s hst hheld hdue
  have due : ∀ r, testHeld sd s = r → exec (.heldStartPermitted sd) s = .next (takeReports r.2 r.1) := by
    rintro r rfl
    simp only [exec, execHeldStartPermitted, heldTest, hst, hdue]
    rfl
  have start : permitted s sd = true → originHolds s h.origin = true → testHeld sd s =
      offerStart h.origin sd ((policyNotice sd h.origin .released none s).setRoller sd
        { s.roller sd with testDue := false }) := fun hp ho => by
    simp only [testHeld, hheld, hp, ho, policyNotice_setRoller, if_true]
    rfl
  refine ⟨fun hp => ?_, fun hp ho hexit => ⟨fun hq => ?_, fun hb hl => ?_⟩, fun hp ho hphase hexit => ?_⟩
  · have held : ((s.setRoller sd { s.roller sd with testDue := false }).roller sd).state ≠ .stopped := by
      rw [roller_setRoller]
      exact fun e => nomatch hst.symm.trans e
    rw [due (s.setRoller sd { s.roller sd with testDue := false }, []) (by simp [testHeld, hheld, hp])]
    exact congrArg Host.Outcome.next (exitReady_moving (sd := sd) held)
  · obtain ⟨x, n, e, -⟩ := policyNotice_only sd h.origin .released none s
    rw [due _ ((start hp ho).trans (offerStart_quiet (quiet_setRoller (quiet_policyNotice hq)))),
      policyNotice_setRoller, takeReports_nil (by rw [e]; exact hexit)]
    simp only [roller_setRoller, setRoller_setRoller, e]
    rfl
  · obtain ⟨x, n, e, -⟩ := policyNotice_only sd h.origin .released none s
    rw [due _ ((start hp ho).trans (offerStart_busy (by rw [e]; exact hb) (by rw [e]; exact hl))),
      policyNotice_setRoller, takeReports_nil (by rw [e]; exact hexit)]
    simp only [roller_setRoller, setRoller_setRoller, e]
    rfl
  · rw [due (cancelHeld sd .interlock .stopped (s.setRoller sd { s.roller sd with testDue := false }),
      [.standstill sd]) (by simp [testHeld, hheld, hp, ho])]
    rw [takeReports_idle (by rw [cancelHeld, policyNotice_engine]; exact hphase)
      (by rw [cancelHeld, policyNotice_lane]; exact hexit)]
    simp only [cancelHeld, roller_setRoller, setRoller_setRoller, hheld]
    rfl

end Sys2Proof.Machine
end

section
/-! The SAMPLE frames (R15, R26, R29, R30). -/

namespace Sys2Proof.Machine

/-! ### Bytes of a payload -/

theorem field_one (l : List Byte) (i : Nat) : field l i 1 = (l.getD i 0).toNat := by
  unfold field
  by_cases h : i < l.length
  · rw [List.drop_eq_getElem_cons h, List.take_succ_cons, List.take_zero, List.getD_eq_getElem _ _ h]
    simp [readNat]
  · rw [List.drop_eq_nil_of_le (Nat.not_lt.mp h), List.getD_eq_default _ _ (Nat.not_lt.mp h)]
    rfl

/-- Two bytes spell the signed value of the word they were made of (R183). -/
theorem readInt_word16 (w : Word16) : readInt (word16 w) = w.toInt := by
  simp [readInt, readNat_word16, BitVec.toInt_eq_toNat_cond, word16_length]

theorem sampleValues_flatMap (raws : List Word16) :
    sampleValues raws.length (raws.flatMap word16) = raws.map BitVec.toInt := by
  induction raws with
  | nil => rfl
  | cons w rest ih =>
    rw [List.length_cons, sampleValues, List.flatMap_cons, List.map_cons,
      List.drop_left' (word16_length w), ih, fieldInt, List.drop_zero, List.take_left' (word16_length w),
      readInt_word16]

/-! ### One value -/

/-- One value of a SAMPLE, judged by the entry of its channel (R29, R30), as the state `s` maps its keys. -/
def judgeSample (s : State) (node : Nat) (tick : Word16) (u : State) (v : Word16 × Nat) : State :=
  match keyEntry s node v.2 with
  | none => u
  | some m =>
    let x := u.qty m.quantity
    let onTick := (s.cad m.cadence).openTick.any (fun o => !o.skipped) ∧ (s.cad m.cadence).tick = tick
    if ¬ onTick ∨ x.pendingRaw.isSome ∨ x.excused = true then
      u.countQty m.quantity fun c => { c with late := c.late + 1 }
    else if x.firstSample = true then u.setQty m.quantity { x with firstSample := false, excused := true }
    else u.setQty m.quantity { x with pendingRaw := some v.1.toInt }

theorem judgeSample_none {s u : State} {node : Nat} {tick : Word16} {v : Word16 × Nat}
    (h : keyEntry s node v.2 = none) : judgeSample s node tick u v = u := by
  simp only [judgeSample, h]

theorem judgeSample_late {s u : State} {node : Nat} {tick : Word16} {v : Word16 × Nat} {m : MapEntry}
    (h : keyEntry s node v.2 = some m)
    (hl : ¬ ((s.cad m.cadence).openTick.any (fun o => !o.skipped) ∧ (s.cad m.cadence).tick = tick) ∨
      (u.qty m.quantity).pendingRaw.isSome ∨ (u.qty m.quantity).excused = true) :
    judgeSample s node tick u v = u.countQty m.quantity fun c => { c with late := c.late + 1 } := by
  simp only [judgeSample, h]
  exact if_pos hl

theorem judgeSample_inTime {s u : State} {node : Nat} {tick : Word16} {v : Word16 × Nat} {m : MapEntry}
    (h : keyEntry s node v.2 = some m)
    (hl : ¬ (¬ ((s.cad m.cadence).openTick.any (fun o => !o.skipped) ∧ (s.cad m.cadence).tick = tick) ∨
      (u.qty m.quantity).pendingRaw.isSome ∨ (u.qty m.quantity).excused = true)) :
    judgeSample s node tick u v = if (u.qty m.quantity).firstSample = true then
        u.setQty m.quantity { u.qty m.quantity with firstSample := false, excused := true }
      else u.setQty m.quantity { u.qty m.quantity with pendingRaw := some v.1.toInt } := by
  simp only [judgeSample, h]
  exact if_neg hl

/-- The states that map every key alike and have the same ticks. -/
def SameKeys (s u : State) : Prop :=
  (∀ node channel, keyEntry u node channel = keyEntry s node channel) ∧ u.cadA = s.cadA ∧ u.cadB = s.cadB

theorem SameKeys.cad {s u : State} (h : SameKeys s u) (c : Cadence) : u.cad c = s.cad c := by
  obtain ⟨-, ha, hb⟩ := h
  cases c with
  | a => exact ha
  | b => exact hb

/-- Judging a value changes counts and quantities alone. -/
theorem judgeSample_sameKeys {s u : State} (h : SameKeys s u) (node : Nat) (tick : Word16) (v : Word16 × Nat) :
    SameKeys s (judgeSample s node tick u v) := by
  unfold judgeSample
  split
  · exact h
  · dsimp only
    split
    · exact h
    · split
      · exact h
      · exact h

theorem takeValue_eq {s u : State} (h : SameKeys s u) (node : Nat) (tick : Word16) (v : Word16 × Nat) :
    takeValue node tick v.2 v.1.toInt u = (judgeSample s node tick u v, (keyEntry s node v.2).isSome) := by
  unfold takeValue judgeSample
  rw [h.1]
  cases keyEntry s node v.2 with
  | none => rfl
  | some m =>
    simp only [h.cad, lateValue, Option.isSome_some]
    cases (s.cad m.cadence).openTick with
    | none => simp
    | some o =>
      by_cases hs : o.skipped = true
      · simp [hs]
      · by_cases ht : (s.cad m.cadence).tick = tick
        · simp only [hs, ht, Option.any_some, bne_self_eq_false, Bool.or_eq_true, Bool.not_eq_true']
          split_ifs <;> simp_all
        · simp [ht]

/-- The values of a SAMPLE are judged in order. -/
theorem takeValues_eq {s : State} (node : Nat) (tick : Word16) (raws : List Word16) :
    ∀ (i : Nat) (u : State), SameKeys s u → takeValues node tick i (raws.map BitVec.toInt) u =
      ((raws.zipIdx i).foldl (judgeSample s node tick) u,
        (raws.zipIdx i).any fun v => (keyEntry s node v.2).isSome) := by
  induction raws with
  | nil => exact fun _ _ _ => rfl
  | cons w rest ih =>
    intro i u h
    rw [List.map_cons, takeValues, takeValue_eq h node tick (w, i),
      ih (i + 1) _ (judgeSample_sameKeys h node tick (w, i))]
    rfl

/-- The count byte of a SAMPLE of good length (R15). -/
theorem goodSample_iff (l : List Byte) : goodSample l = true ↔
    1 ≤ (l.getD 2 0).toNat ∧ (l.getD 2 0).toNat ≤ 8 ∧ l.length = 3 + 2 * (l.getD 2 0).toNat := by
  simp only [goodSample, field_one, inRange, Bool.and_eq_true, decide_eq_true_eq, beq_iff_eq, and_assoc]

theorem exec_sampleFrame {f : Frame} {s : State} (hf : s.head.fifo.head? = some f) (hs : isHead f.src = true)
    (hd : f.dst = 0) (hk : f.kind = kindSample) :
    exec .sampleFrame s = .next (takeSampleFrame f (s.dropFirst .head)) := by
  simp only [exec, execSampleFrame, taken_eq (p := .head) hf (route_sample s hs hd hk)]

/-- The payload of a SAMPLE with these raw values (section 11.3). -/
theorem takeSampleFrame_values {f : Frame} {s : State} {tick : Word16} {raws : List Word16} (h1 : 1 ≤ raws.length)
    (h8 : raws.length ≤ 8) (hp : f.payload = word16 tick ++ BitVec.ofNat 8 raws.length :: raws.flatMap word16) :
    takeSampleFrame f s = takeSample f.src.toNat tick (raws.map BitVec.toInt) s := by
  have hcount : (f.payload.getD 2 0).toNat = raws.length := by
    rw [hp]
    exact (BitVec.toNat_ofNat _ _).trans (Nat.mod_eq_of_lt (by omega))
  have hbytes : (raws.flatMap word16).length = 2 * raws.length := by
    simp [List.length_flatMap, word16_length, Nat.mul_comm]
  have htick : BitVec.ofNat 16 (field f.payload 0 2) = tick := by
    rw [field, List.drop_zero, hp, List.take_left' (word16_length tick), readNat_word16, BitVec.ofNat_toNat]
    simp
  have hlen : f.payload.length = 3 + 2 * raws.length := by
    rw [hp, List.length_append, word16_length, List.length_cons, hbytes]
    omega
  have hgood : goodSample f.payload = true := (goodSample_iff _).mpr (by omega)
  rw [takeSampleFrame, if_pos hgood, field_one, hcount, htick,
    show f.payload.drop 3 = raws.flatMap word16 by rw [hp]; rfl, sampleValues_flatMap]

theorem takeSample_eq (node : Nat) (tick : Word16) (raws : List Word16) {s u : State} (h : SameKeys s u) :
    takeSample node tick (raws.map BitVec.toInt) u =
      let t := raws.zipIdx.foldl (judgeSample s node tick) u
      if ∀ i < raws.length, keyEntry s node i = none then t.count fun c => { c with unmapped := c.unmapped + 1 }
      else t := by
  rw [takeSample, takeValues_eq node tick raws 0 u h]
  have mapped : (raws.zipIdx.any fun v => (keyEntry s node v.2).isSome) = true ↔
      ¬ ∀ i < raws.length, keyEntry s node i = none := by
    simp only [List.any_eq_true, Prod.exists, List.mem_zipIdx_iff_getElem?, not_forall, ← Option.isSome_iff_ne_none]
    constructor
    · rintro ⟨w, i, hi, h⟩
      exact ⟨i, (List.getElem?_eq_some_iff.mp hi).1, h⟩
    · rintro ⟨i, hi, h⟩
      exact ⟨raws[i], i, List.getElem?_eq_getElem hi, h⟩
  dsimp only
  split <;> split <;> tauto

/-- Settles O11: the values of a SAMPLE in order; a single value is the list of one. -/
theorem sampleJudged : Obligations.SampleJudged := by
  unfold Obligations.SampleJudged
  intro f s hf hs hd hk
  have hexec := exec_sampleFrame hf hs hd hk
  have values : ∀ (tick : Word16) (raws : List Word16), 1 ≤ raws.length → raws.length ≤ 8 →
      f.payload = word16 tick ++ BitVec.ofNat 8 raws.length :: raws.flatMap word16 → exec .sampleFrame s =
        .next (let t := raws.zipIdx.foldl (judgeSample s f.src.toNat tick) (s.dropFirst .head)
          if ∀ i < raws.length, keyEntry s f.src.toNat i = none then
            t.count fun c => { c with unmapped := c.unmapped + 1 } else t) := fun tick raws h1 h8 hp => by
    rw [hexec, takeSampleFrame_values h1 h8 hp, takeSample_eq _ _ _ (s := s) (u := s.dropFirst .head)
      ⟨fun _ _ => rfl, rfl, rfl⟩]
  refine ⟨fun hbad => ?_, fun tick raw hp => ?_, values⟩
  · have : ¬ goodSample f.payload = true := fun h => by
      have := (goodSample_iff _).mp h
      omega
    rw [hexec, takeSampleFrame, if_neg this]
    rfl
  · have one := values tick [raw] (Nat.le_refl 1) (Nat.le_add_left 1 7) hp
    refine ⟨fun hnone => ?_, fun m hm => ?_⟩
    · have : ∀ i < [raw].length, keyEntry s f.src.toNat i = none := fun i hi => by
        rw [Nat.lt_one_iff.mp hi, hnone]
      rw [one, if_pos this]
      exact congrArg Host.Outcome.next (congrArg (fun t : State => t.count _) (judgeSample_none hnone))
    · have : ¬ ∀ i < [raw].length, keyEntry s f.src.toNat i = none := fun h =>
        nomatch hm.symm.trans (h 0 Nat.one_pos)
      rw [one, if_neg this]
      have hopen : (s.cad m.cadence).openTick.any (fun o => !o.skipped) = true ↔
          ∃ o, (s.cad m.cadence).openTick = some o ∧ o.skipped = false := by simp [Option.any_eq_true]
      rw [← hopen]
      have inTime : ((s.cad m.cadence).openTick.any (fun o => !o.skipped) = true ∧ (s.cad m.cadence).tick = tick) →
          (s.qty m.quantity).pendingRaw = none → (s.qty m.quantity).excused = false →
          judgeSample s f.src.toNat tick (s.dropFirst .head) (raw, 0) = _ := fun ho hp hx =>
        judgeSample_inTime hm (by
          rintro (h | h | h)
          · exact h ho
          · exact absurd (hp ▸ h) (by decide)
          · exact nomatch hx.symm.trans h)
      refine ⟨fun h => congrArg Host.Outcome.next (judgeSample_late (v := (raw, 0)) hm h),
        fun ho hp hx h1 => congrArg Host.Outcome.next ((inTime ho hp hx).trans (if_pos h1)),
        fun ho hp hx h1 => congrArg Host.Outcome.next ((inTime ho hp hx).trans (if_neg (h1 ▸ Bool.false_ne_true)))⟩

end Sys2Proof.Machine
end

section
/-! What the lane's entries, suspensions and flushes replace, said once, and what stays within those parts. -/

namespace Sys2Proof.Machine

/-! ### Flushed batches -/

/-- A flush empties the quantity's batch and leaves those of the others (R42). -/
theorem flushBatch_qty (q r : Quantity) (s : State) :
    (flushBatch q s).qty r = { s.qty r with batch := ((flushBatch q s).qty r).batch } ∧
      (r = q ∨ (s.qty r).batch.values = [] → ((flushBatch q s).qty r).batch.values = []) := by
  obtain ⟨x, qs, n, e, -, ⟨rfl, hv⟩ | rfl⟩ := flushBatch_only q s
  · rw [e]
    refine ⟨rfl, ?_⟩
    rintro (rfl | h)
    · exact hv
    · exact h
  · have eq : (flushBatch q s).qty r = (s.setQty q { s.qty q with batch := Batch.empty }).qty r := by rw [e]; rfl
    rw [eq]
    by_cases hr : q = r
    · subst hr
      by_cases hl : quantityCode q < s.quantities.length
      · have : (s.setQty q { s.qty q with batch := Batch.empty }).qty q = { s.qty q with batch := Batch.empty } := by
          simp [State.qty, State.setQty, List.getD, hl]
        rw [this]
        exact ⟨rfl, fun _ => rfl⟩
      · have : s.setQty q { s.qty q with batch := Batch.empty } = s := by
          rw [State.setQty, List.set_eq_of_length_le (Nat.not_lt.mp hl)]
        rw [this]
        refine ⟨rfl, fun _ => ?_⟩
        rw [State.qty, List.getD_eq_default _ _ (Nat.not_lt.mp hl)]
        rfl
    · rw [qty_setQty_other _ hr]
      exact ⟨rfl, fun h => h.elim (fun e => absurd e.symm hr) id⟩

theorem foldl_flushBatch_qty (l : List Quantity) (r : Quantity) (s : State) :
    let t := l.foldl (fun t q => flushBatch q t) s
    t.qty r = { s.qty r with batch := (t.qty r).batch } ∧
      (r ∈ l ∨ (s.qty r).batch.values = [] → (t.qty r).batch.values = []) := by
  induction l generalizing s with
  | nil => exact ⟨rfl, fun h => h.elim (fun m => nomatch m) id⟩
  | cons q rest ih =>
    obtain ⟨h1, h2⟩ := flushBatch_qty q r s
    obtain ⟨k1, k2⟩ := ih (flushBatch q s)
    refine ⟨?_, fun h => k2 ?_⟩
    · rw [List.foldl_cons, k1, h1]
    · rcases h with h | h
      · rcases List.mem_cons.mp h with h | h
        · exact .inr (h2 (.inl h))
        · exact .inl h
      · exact .inr (h2 (.inr h))

theorem flushBatches_qty (s : State) (q : Quantity) :
    (flushBatches s).qty q = { s.qty q with batch := ((flushBatches s).qty q).batch } := by
  unfold flushBatches
  exact (foldl_flushBatch_qty allQuantities q s).1

theorem mem_allQuantities (q : Quantity) : q ∈ allQuantities := by cases q <;> decide

/-- After the flush every batch is empty (R42). -/
theorem flushBatches_values (s : State) (q : Quantity) : ((flushBatches s).qty q).batch.values = [] := by
  unfold flushBatches
  exact (foldl_flushBatch_qty allQuantities q s).2 (.inl (mem_allQuantities q))

/-! ### What the station hears -/

/-- What notices, replies and flushes replace: the station port, the batches, and the counts of what was lost. -/
structure Speaks (s t : State) : Prop where
  only : t = { s with station := t.station, quantities := t.quantities, live := t.live }
  counts : t.live = { s.live with station := t.live.station, droppedBatches := t.live.droppedBatches,
                                  droppedReplies := t.live.droppedReplies }
  qty : ∀ q, t.qty q = { s.qty q with batch := (t.qty q).batch }
  emptied : ∀ q, (s.qty q).batch.values = [] → (t.qty q).batch.values = []

theorem Speaks.refl (s : State) : Speaks s s := ⟨rfl, rfl, fun _ => rfl, fun _ => id⟩

theorem id_speaks (s : State) : Speaks s (id s) := Speaks.refl s

theorem Speaks.trans {s t u : State} (h : Speaks s t) (k : Speaks t u) : Speaks s u where
  only := k.only.trans (congrArg (fun x : State =>
    { x with station := u.station, quantities := u.quantities, live := u.live }) h.only)
  counts := k.counts.trans (congrArg (fun x : Counters =>
    { x with station := u.live.station, droppedBatches := u.live.droppedBatches,
             droppedReplies := u.live.droppedReplies }) h.counts)
  qty := fun q => (k.qty q).trans (congrArg (fun x : QuantityState => { x with batch := (u.qty q).batch }) (h.qty q))
  emptied := fun q e => k.emptied q (h.emptied q e)

/-- What leaves the quantities as they were. -/
theorem Speaks.ofQuantities {s t : State} (only : t = { s with station := t.station, live := t.live })
    (counts : t.live = { s.live with station := t.live.station, droppedReplies := t.live.droppedReplies }) :
    Speaks s t := by
  have hq : t.quantities = s.quantities := by rw [only]
  have hqty : ∀ q, t.qty q = s.qty q := fun q => by rw [State.qty, State.qty, hq]
  refine ⟨?_, ?_, fun q => by rw [hqty], fun q e => by rw [hqty, e]⟩
  · rw [hq]
    exact only
  · rw [counts]

theorem notice_speaks (code : Byte) (l : List Byte) (s : State) : Speaks s (notice code l s) := by
  obtain ⟨x, n, e, -⟩ := notice_only code l s
  exact .ofQuantities (by rw [e]) (by rw [e]; rfl)

theorem reply_speaks (src : Nat) (code status : Byte) (l : List Byte) (s : State) :
    Speaks s (reply src code status l s) := by
  obtain ⟨x, n, e, -⟩ := reply_only src code status l s
  exact .ofQuantities (by rw [e]) (by rw [e])

theorem flushBatches_speaks (s : State) : Speaks s (flushBatches s) := by
  obtain ⟨x, qs, n, e, -⟩ := flushBatches_only s
  refine ⟨?_, ?_, flushBatches_qty s, fun q _ => flushBatches_values s q⟩
  · rw [e]
  · rw [e]

/-! ### Entering a lane state -/

theorem laneStateNotice_speaks (prev : LaneState) (o : LaneOccasion) (s : State) :
    Speaks s (laneStateNotice prev o s) := by
  unfold laneStateNotice
  exact notice_speaks _ _ s

/-- An entry of the lane speaks to the station (R64). -/
theorem enterLane_speaks {answer : State → State} (h : ∀ s, Speaks s (answer s)) (new : LaneState) (o : LaneOccasion)
    (s : State) : Speaks (s.setLane fun l => { l with state := new }) (enterLane new o answer s) := by
  unfold enterLane
  exact (h _).trans ((flushBatches_speaks _).trans (laneStateNotice_speaks _ _ _))

/-- An entry of the lane empties the batches (R42, R64). -/
theorem enterLane_values (answer : State → State) (new : LaneState) (o : LaneOccasion) (s : State) (q : Quantity) :
    ((enterLane new o answer s).qty q).batch.values = [] := by
  unfold enterLane
  exact (laneStateNotice_speaks _ _ _).emptied q (flushBatches_values _ q)

/-! ### Within the working parts -/

/-- What may change while a test is stopped: the ports, the lane, the batches, the Step Engine, the Evaluator, the
rollers and the counts; no other part of the state. -/
def Within (s t : State) : Prop :=
  t = { s with head := t.head, urgent := t.urgent, headPlace := t.headPlace, station := t.station, lane := t.lane,
               quantities := t.quantities, engine := t.engine, eval := t.eval, rollers := t.rollers, live := t.live }

theorem Within.refl (s : State) : Within s s := rfl

theorem Within.trans {s t u : State} (h : Within s t) (k : Within t u) : Within s u := by
  unfold Within at h k ⊢
  rw [k, h]

theorem Speaks.within {s t : State} (h : Speaks s t) : Within s t := by
  have e := h.only
  unfold Within
  rw [e]

theorem stoppingBoth_within (s : State) (x y : PortState) (u v : Option WaitingStop) (n : Word32) (l r : RollerSide) :
    Within s (s.stoppingBoth x u v y n l r) := rfl

theorem laneStopBoth_within (s : State) : Within s (laneStopBoth s).1 := by
  obtain ⟨x, u, v, y, n, l, r, e, -⟩ := laneStopBoth_only s
  rw [e]
  exact stoppingBoth_within _ _ _ _ _ _ _ _

theorem laneStopBoth_lane (s : State) : (laneStopBoth s).1.lane = s.lane := by
  obtain ⟨x, u, v, y, n, l, r, e, -⟩ := laneStopBoth_only s
  rw [e]
  rfl

theorem laneStopBoth_engine (s : State) : (laneStopBoth s).1.engine = s.engine := by
  obtain ⟨x, u, v, y, n, l, r, e, -⟩ := laneStopBoth_only s
  rw [e]
  rfl

theorem laneStopBoth_roller (s : State) (sd : Side) : StoppedFrom (s.roller sd) ((laneStopBoth s).1.roller sd) := by
  obtain ⟨x, u, v, y, n, l, r, e, hl, hr⟩ := laneStopBoth_only s
  rw [e]
  cases sd with
  | left => exact hl
  | right => exact hr

theorem enterLane_lane {answer : State → State} (h : ∀ s, Speaks s (answer s)) (new : LaneState) (o : LaneOccasion)
    (s : State) : (enterLane new o answer s).lane = { s.lane with state := new } := by
  rw [(enterLane_speaks h new o s).only]
  rfl

theorem enterLane_engine {answer : State → State} (h : ∀ s, Speaks s (answer s)) (new : LaneState) (o : LaneOccasion)
    (s : State) : (enterLane new o answer s).engine = s.engine := by
  rw [(enterLane_speaks h new o s).only]
  rfl

theorem enterLane_rollers {answer : State → State} (h : ∀ s, Speaks s (answer s)) (new : LaneState) (o : LaneOccasion)
    (s : State) : (enterLane new o answer s).rollers = s.rollers := by
  rw [(enterLane_speaks h new o s).only]
  rfl

theorem enterLane_roller {answer : State → State} (h : ∀ s, Speaks s (answer s)) (new : LaneState) (o : LaneOccasion)
    (s : State) (sd : Side) : (enterLane new o answer s).roller sd = s.roller sd :=
  congrArg (fun x : Rollers => x.sides.get sd) (enterLane_rollers h new o s)

theorem setLane_within (f : LaneControl → LaneControl) (s : State) : Within s (s.setLane f) := rfl

theorem enterLane_within {answer : State → State} (h : ∀ s, Speaks s (answer s)) (new : LaneState) (o : LaneOccasion)
    (s : State) : Within s (enterLane new o answer s) :=
  (setLane_within _ s).trans (enterLane_speaks h new o s).within

/-! ### Suspensions -/

/-- What a suspension does: nothing, when no step of the plan runs; the measurement dropped for a restart; or the step
kept as it stands (R101). -/
theorem suspend_forms (s : State) :
    suspend s = s ∧ (s.engine.phase ≠ .running ∨ currentKind s = none) ∨
    suspend s = (watchesOff (resetEval s)).setEngine (fun e =>
      { e with phase := .suspendedRestart, marks := { left := .clear, right := .clear } }) ∨
    ∃ n, suspend s = s.setEngine fun e => { e with phase := .suspendedContinue, presence := n } := by
  unfold suspend
  split
  next h => exact .inl ⟨rfl, .inl (bne_iff_ne.mp h)⟩
  next =>
    cases hk : currentKind s with
    | none => exact .inl ⟨rfl, .inr rfl⟩
    | some k =>
      cases k with
      | spin | service | hold | park | weigh => exact .inr (.inl rfl)
      | axleIn | axleOut | stop => exact .inr (.inr ⟨0, rfl⟩)
      | finish => exact .inr (.inr ⟨s.engine.presence, rfl⟩)

theorem suspend_within (s : State) : Within s (suspend s) := by
  rcases suspend_forms s with ⟨e, -⟩ | e | ⟨n, e⟩ <;> rw [e] <;> rfl

theorem suspend_lane (s : State) : (suspend s).lane = s.lane := by
  rcases suspend_forms s with ⟨e, -⟩ | e | ⟨n, e⟩ <;> rw [e] <;> rfl

/-- A suspension leaves no step of a plan running (R101). -/
theorem suspend_idle (s : State) : (suspend s).engine.phase ≠ .running ∨ currentKind s = none := by
  rcases suspend_forms s with ⟨e, h⟩ | e | ⟨n, e⟩
  · rw [e]
    exact h
  · exact .inl (by rw [e]; simp)
  · exact .inl (by rw [e]; simp)

/-- A suspension changes no more of a side than its watch (R101). -/
theorem suspend_roller (s : State) (sd : Side) :
    (suspend s).roller sd = s.roller sd ∨ (suspend s).roller sd = (s.roller sd).watchOff := by
  rcases suspend_forms s with ⟨e, -⟩ | e | ⟨n, e⟩
  · exact .inl (by rw [e])
  · rw [e]
    exact .inr (watchesOff_roller (resetEval s) sd)
  · exact .inl (by rw [e]; rfl)

theorem suspend_still {s : State} {sd : Side} (h : (s.roller sd).still = true) :
    ((suspend s).roller sd).still = true := by
  rcases suspend_roller s sd with e | e
  · rw [e, h]
  · rw [e]
    exact h

theorem suspend_watch {s : State} {sd : Side} (h : (s.roller sd).watch = none) :
    ((suspend s).roller sd).watch = none := by
  rcases suspend_roller s sd with e | e
  · rw [e, h]
  · rw [e]
    rfl

/-! ### Sides that are neither started nor held -/

theorem exitReady_stays {s : State} (h : s.lane.exitWait = false ∨ s.lane.state = .halted) : exitReady s = s := by
  rcases h with h | h
  · exact exitReady_eq h
  · simp [exitReady, h]

theorem still_not_held {r : RollerSide} (h : r.still = true) : r.state ≠ .held := fun e => by
  simp [RollerSide.still, e] at h

theorem overtempHeld_still {sd : Side} {s : State} (h : (s.roller sd).still = true) :
    overtempHeld sd s = (s, []) := by
  simp [overtempHeld, still_not_held h]

/-- A contactor state reported for a side neither started nor held: it stays so, and nothing is reported of it. -/
theorem contactor_still {sd : Side} {on : Bool} {s : State} (h : (s.roller sd).still = true) :
    ∃ x u v y n r, contactor sd on s = (s.stopping sd x u v y n r, []) ∧ r.still = true ∧
      r.watch = (s.roller sd).watch := by
  have held : ((s.roller sd).state == .held) = false := beq_eq_false_iff_ne.mpr (still_not_held h)
  unfold contactor
  dsimp only
  rw [roller_setRoller]
  split
  · obtain ⟨x, u, v, b, e⟩ := offerStop_stopping sd (s.setRoller sd { s.roller sd with contactor := on })
    obtain ⟨y, n, e2, -⟩ := policyNotice_only sd .supervisor .uncommanded (some .contactor)
      ((offerStop sd (s.setRoller sd { s.roller sd with contactor := on })).1.setRoller sd
        { (offerStop sd (s.setRoller sd { s.roller sd with contactor := on })).1.roller sd with state := .coasting })
    simp only [held, Bool.false_eq_true, if_false, e2]
    rw [e, stopping_roller, stopping_setRoller, roller_setRoller]
    exact ⟨x, u, v, y, n, { s.roller sd with contactor := on, outstanding := b, state := .coasting },
      by cases sd <;> rfl, rfl, rfl⟩
  · exact ⟨_, _, _, _, _, { s.roller sd with contactor := on }, by rw [setRoller_eq_stopping], h, rfl⟩

/-! ### A side stopped by the lane (R112) -/

theorem offerStop_head_busy {sd : Side} {s : State} (h : s.head.tx ≠ .idle) :
    (offerStop sd s).1.head = { s.head with queue := s.head.queue.filter fun f => !isStart sd f } := by
  rw [offerStop_busy h]
  rfl

theorem offerStop_station (sd : Side) (s : State) : (offerStop sd s).1.station = s.station := by
  obtain ⟨x, u, v, b, e⟩ := offerStop_stopping sd s
  rw [e]
  rfl

/-- Whether the lane's stop request offers a STOP for a side in this state (R112). -/
def RollerState.offersStop : RollerState → Bool
  | .stopped | .held => false
  | .spinningUp | .running | .coasting => true

/-- What the stop request does to the ports: those of the offered STOP, or those of the POLICY notice (R112). -/
theorem laneStop_head (sd : Side) (s : State) : (laneStop sd s).1.head =
    if (s.roller sd).state.offersStop then (offerStop sd s).1.head else s.head := by
  cases h : (s.roller sd).state with
  | stopped => simp only [laneStop, h]; rfl
  | held =>
    obtain ⟨y, n, e⟩ := cancelHeld_only sd .lane .stopped s
    simp only [laneStop, h, e]
    rfl
  | spinningUp => simp only [laneStop, h]; rfl
  | running => simp only [laneStop, h]; rfl
  | coasting => simp only [laneStop, h]; rfl

theorem laneStop_station {sd : Side} {s : State} (hn : (s.roller sd).state ≠ .held) :
    (laneStop sd s).1.station = s.station := by
  cases h : (s.roller sd).state with
  | stopped => simp only [laneStop, h]
  | held => exact absurd h hn
  | spinningUp => simp only [laneStop, h]; exact offerStop_station sd s
  | running => simp only [laneStop, h]; exact offerStop_station sd s
  | coasting => simp only [laneStop, h]; exact offerStop_station sd s

theorem laneStop_other (s : State) : (laneStop .left s).1.roller .right = s.roller .right := by
  obtain ⟨x, u, v, y, n, r, e, -⟩ := laneStop_only .left s
  rw [e]
  rfl

theorem laneStopBoth_station {s : State} (hn : ∀ sd, (s.roller sd).state ≠ .held) :
    (laneStopBoth s).1.station = s.station :=
  (laneStop_station (by rw [laneStop_other]; exact hn .right)).trans (laneStop_station (hn .left))

/-- At a busy head port the stop requests take no more from the queue than the STARTs of the sides they stop. -/
theorem laneStopBoth_head_busy {s : State} (h : s.head.tx ≠ .idle) :
    (laneStopBoth s).1.head = { s.head with queue := s.head.queue.filter fun f =>
      !((s.roller .left).state.offersStop && isStart .left f ||
        (s.roller .right).state.offersStop && isStart .right f) } := by
  have one : ∀ sd (t : State), t.head.tx ≠ .idle → (laneStop sd t).1.head = { t.head with
      queue := t.head.queue.filter fun f => !((t.roller sd).state.offersStop && isStart sd f) } := fun sd t ht => by
    rw [laneStop_head]
    cases (t.roller sd).state.offersStop
    · simp
    · simp [offerStop_head_busy ht]
  have left := one .left s h
  show (laneStop .right (laneStop .left s).1).1.head = _
  rw [one .right _ (by rw [left]; exact h), laneStop_other, left]
  simp only [List.filter_filter, Bool.not_or, Bool.and_comm]

end Sys2Proof.Machine
end

section
/-! The STATUS of the drive cabinet (R16, R76, R77, R79, R82, R119, R120). -/

namespace Sys2Proof.Machine

/-! ### The bytes of a STATUS -/

theorem statusFlag_eq (l : List Byte) (i : Nat) : statusFlag l i = decide (l.getD i 0 ≠ 0) := by
  rw [statusFlag, field_one, Bool.eq_iff_iff, bne_iff_ne, decide_eq_true_iff, ne_eq, ne_eq, ← BitVec.toNat_inj]
  rfl

theorem takeStatus_bytes (cl ol cr or_ e : Byte) (s : State) : takeStatus [cl, ol, cr, or_, e] s =
    maybeReturn (takeContactor .right (decide (cr ≠ 0)) (takeContactor .left (decide (cl ≠ 0))
      (takeOvertemp .right (decide (or_ ≠ 0)) (takeOvertemp .left (decide (ol ≠ 0))
        (takeEstop (decide (e ≠ 0)) s))))) := by
  unfold takeStatus
  simp only [statusFlag_eq]
  rfl

theorem isCabinetStatus_iff {s : State} {f : Frame} {payload : List Byte} :
    isCabinetStatus s f payload = true ↔ isHead f.src = true ∧ f.dst = 0 ∧ f.kind = kindStatus ∧
      cabinetNode s = some f.src.toNat ∧ f.payload = payload ∧ f.payload.length = 5 := by
  simp only [isCabinetStatus, Bool.and_eq_true, beq_iff_eq]
  tauto

theorem exec_statusFrame {f : Frame} {s : State} (hf : s.head.fifo.head? = some f) (hs : isHead f.src = true)
    (hd : f.dst = 0) (hk : f.kind = kindStatus) (hc : cabinetNode s = some f.src.toNat) :
    exec .statusFrame s = .next (takeStatusFrame f (s.dropFirst .head)) := by
  simp only [exec, execStatusFrame, taken_eq (p := .head) hf (route_status hs hd hk hc)]

/-- The supervisor takes a STATUS after its copy was offered, whatever became of the copy (R16). -/
theorem exec_status {f : Frame} {cl ol cr or_ e : Byte} {s : State} (hf : s.head.fifo.head? = some f)
    (h : isCabinetStatus s f [cl, ol, cr, or_, e] = true) :
    exec .statusFrame s = .next (takeStatus [cl, ol, cr, or_, e]
      (offerCounted .station (statusCopy f) (s.dropFirst .head))) := by
  obtain ⟨hs, hd, hk, hc, hp, hl⟩ := isCabinetStatus_iff.mp h
  rw [exec_statusFrame hf hs hd hk hc, takeStatusFrame, if_pos hl, hp]

/-! ### The flags (R119) -/

theorem takeOvertemp_along (sd : Side) (set : Bool) (s : State) :
    Along (s.setRoller sd { s.roller sd with overtemp := set }) (takeOvertemp sd set s) := by
  unfold takeOvertemp
  split
  next h =>
    rw [eq_of_beq h]
    exact (setRoller_roller s sd).symm ▸ Along.refl s
  next =>
    exact Along.ite ((testDriveFault_along _).trans ((overtempHeld_along sd _).trans (takeReports_along _ _)))
      (testDriveFault_along _)

theorem takeContactor_along (sd : Side) (on : Bool) (s : State) :
    Along (s.setRoller sd { s.roller sd with contactor := on }) (takeContactor sd on s) :=
  (contactor_along sd on s).trans (takeReports_along _ _)

theorem estopRollers_along (s : State) :
    Along { s with rollers := { s.rollers with estop := true } } (estopRollers s) :=
  ((offerStop_along .left _).trans (offerStop_along .right _)).trans
    ((estopSide_along .left _ _).trans (estopSide_along .right _ _))

theorem takeEstop_along (set : Bool) (s : State) :
    Along { s with rollers := { s.rollers with estop := set } } (takeEstop set s) := by
  unfold takeEstop
  split
  next h =>
    rw [eq_of_beq h]
    exact Along.refl s
  next =>
    cases set with
    | false => exact Along.refl _
    | true => exact (estopRollers_along s).trans (estopLane_along _)

/-- A STATUS leaves the five flags as it reports them, the receiver's FIFO and lane time as they were (R119). -/
theorem takeStatus_flags (cl ol cr or_ e : Byte) (s : State) :
    let t := takeStatus [cl, ol, cr, or_, e] s
    t.rollers.estop = decide (e ≠ 0) ∧
      (t.roller .left).contactor = decide (cl ≠ 0) ∧ (t.roller .right).contactor = decide (cr ≠ 0) ∧
      (t.roller .left).overtemp = decide (ol ≠ 0) ∧ (t.roller .right).overtemp = decide (or_ ≠ 0) ∧
      t.head.fifo = s.head.fifo ∧ t.clock.laneTime = s.clock.laneTime := by
  rw [takeStatus_bytes]
  have h1 := takeEstop_along (decide (e ≠ 0)) s
  generalize takeEstop (decide (e ≠ 0)) s = t1 at h1 ⊢
  have h2 := takeOvertemp_along .left (decide (ol ≠ 0)) t1
  generalize takeOvertemp .left (decide (ol ≠ 0)) t1 = t2 at h2 ⊢
  have h3 := takeOvertemp_along .right (decide (or_ ≠ 0)) t2
  generalize takeOvertemp .right (decide (or_ ≠ 0)) t2 = t3 at h3 ⊢
  have h4 := takeContactor_along .left (decide (cl ≠ 0)) t3
  generalize takeContactor .left (decide (cl ≠ 0)) t3 = t4 at h4 ⊢
  have h5 := (takeContactor_along .right (decide (cr ≠ 0)) t4).trans (maybeReturn_along _)
  generalize maybeReturn (takeContactor .right (decide (cr ≠ 0)) t4) = t5 at h5 ⊢
  refine ⟨?_, ?_, ?_, ?_, ?_, ?_, ?_⟩
  · calc t5.rollers.estop = t4.rollers.estop := h5.estop
      _ = t3.rollers.estop := h4.estop
      _ = t2.rollers.estop := h3.estop
      _ = t1.rollers.estop := h2.estop
      _ = decide (e ≠ 0) := h1.estop
  · exact (h5.flags .left).1.trans (h4.flags .left).1
  · exact (h5.flags .right).1
  · calc (t5.roller .left).overtemp = (t4.roller .left).overtemp := (h5.flags .left).2
      _ = (t3.roller .left).overtemp := (h4.flags .left).2
      _ = (t2.roller .left).overtemp := (h3.flags .left).2
      _ = decide (ol ≠ 0) := (h2.flags .left).2
  · calc (t5.roller .right).overtemp = (t4.roller .right).overtemp := (h5.flags .right).2
      _ = (t3.roller .right).overtemp := (h4.flags .right).2
      _ = decide (or_ ≠ 0) := (h3.flags .right).2
  · calc t5.head.fifo = t4.head.fifo := h5.head.fifo
      _ = t3.head.fifo := h4.head.fifo
      _ = t2.head.fifo := h3.head.fifo
      _ = t1.head.fifo := h2.head.fifo
      _ = s.head.fifo := h1.head.fifo
  · calc t5.clock.laneTime = t4.clock.laneTime := h5.time.1
      _ = t3.clock.laneTime := h4.time.1
      _ = t2.clock.laneTime := h3.time.1
      _ = t1.clock.laneTime := h2.time.1
      _ = s.clock.laneTime := h1.time.1

/-! ### Sides that are neither started nor held -/

/-- What the taking of a flag leaves where no side is started or held. -/
structure Rests (s t : State) : Prop where
  lane : t.lane = s.lane
  engine : t.engine = s.engine
  within : Within s t
  still : ∀ sd, (t.roller sd).still = true
  watch : ∀ sd, (s.roller sd).watch = none → (t.roller sd).watch = none

theorem Rests.trans {s t u : State} (h : Rests s t) (k : Rests t u) : Rests s u :=
  ⟨k.lane.trans h.lane, k.engine.trans h.engine, h.within.trans k.within, k.still,
    fun sd e => k.watch sd (h.watch sd e)⟩

theorem roller_setRoller_ite (s : State) (sd sd' : Side) (r : RollerSide) :
    (s.setRoller sd r).roller sd' = if sd' = sd then r else s.roller sd' := by cases sd <;> cases sd' <;> rfl

theorem stopping_rests {s : State} {sd : Side} {x y : PortState} {u v : Option WaitingStop} {n : Word32}
    {r : RollerSide} (hs : ∀ sd, (s.roller sd).still = true) (hr : r.still = true)
    (hw : r.watch = (s.roller sd).watch) : Rests s (s.stopping sd x u v y n r) := by
  have side : ∀ sd', (s.stopping sd x u v y n r).roller sd' = if sd' = sd then r else s.roller sd' :=
    fun sd' => roller_setRoller_ite s sd sd' r
  refine ⟨rfl, rfl, rfl, fun sd' => ?_, fun sd' h => ?_⟩
  · rw [side]
    split
    · exact hr
    · exact hs sd'
  · rw [side]
    split
    next e => exact hw.trans (e ▸ h)
    next => exact h

theorem takeContactor_rests {sd : Side} {on : Bool} {s : State} (hs : ∀ sd, (s.roller sd).still = true)
    (he : s.lane.exitWait = false ∨ s.lane.state = .halted) : Rests s (takeContactor sd on s) := by
  obtain ⟨x, u, v, y, n, r, e, hr, hw⟩ := contactor_still (sd := sd) (on := on) (hs sd)
  have rests := stopping_rests (x := x) (y := y) (u := u) (v := v) (n := n) hs hr hw
  have stays : takeContactor sd on s = s.stopping sd x u v y n r := by
    rw [takeContactor, e]
    exact exitReady_stays he
  rw [stays]
  exact rests

/-- A side whose overtemperature flag is written. -/
def State.heat (s : State) (sd : Side) (set : Bool) : State := s.setRoller sd { s.roller sd with overtemp := set }

theorem heat_self (s : State) (sd : Side) : s.heat sd (s.roller sd).overtemp = s := setRoller_roller s sd

theorem heat_rests {s : State} (sd : Side) (set : Bool) (hs : ∀ sd, (s.roller sd).still = true) :
    Rests s (s.heat sd set) :=
  stopping_rests (x := s.head) (y := s.station) (u := s.urgent) (v := s.headPlace)
    (n := s.live.station.txOverrun) (r := { s.roller sd with overtemp := set }) hs (hs sd) rfl

/-- The taking of a flag that is new: DRIVE_FAULT is tested, and a side that is not held has nothing to report. -/
theorem takeOvertemp_new {sd : Side} {set : Bool} {s : State} (hn : (set == (s.roller sd).overtemp) = false)
    (h : set = true → ((testDriveFault (s.heat sd set)).roller sd).still = true ∧
      ((testDriveFault (s.heat sd set)).lane.exitWait = false ∨
        (testDriveFault (s.heat sd set)).lane.state = .halted)) :
    takeOvertemp sd set s = testDriveFault (s.heat sd set) := by
  have stays (e : set = true) : takeReports (overtempHeld sd (testDriveFault (s.heat sd set))).2
      (overtempHeld sd (testDriveFault (s.heat sd set))).1 = testDriveFault (s.heat sd set) := by
    rw [overtempHeld_still (h e).1]
    exact exitReady_stays (h e).2
  unfold takeOvertemp
  rw [hn]
  exact (if_neg Bool.false_ne_true).trans (by split; exacts [stays ‹_›, rfl])

/-- In HALTED a flag adds or removes DRIVE_FAULT alone (R76). -/
theorem testDriveFault_halted {s : State} (h : s.lane.state = .halted) :
    ∃ d, testDriveFault s = s.setLane fun l => { l with causes := { l.causes with driveFault := d } } := by
  unfold testDriveFault
  split
  next =>
    split
    · exact ⟨s.lane.causes.driveFault, rfl⟩
    · exact ⟨false, rfl⟩
  next =>
    split
    · refine ⟨true, ?_⟩
      simp only [recordCause, h]
      rfl
    · exact ⟨s.lane.causes.driveFault, rfl⟩

theorem takeOvertemp_halted {sd : Side} {set : Bool} {s : State} (hs : ∀ sd, (s.roller sd).still = true)
    (h : s.lane.state = .halted) : ∃ d, takeOvertemp sd set s =
      (s.heat sd set).setLane fun l => { l with causes := { l.causes with driveFault := d } } := by
  cases hn : set == (s.roller sd).overtemp with
  | true =>
    refine ⟨s.lane.causes.driveFault, ?_⟩
    rw [takeOvertemp, if_pos hn, eq_of_beq hn, heat_self]
    rfl
  | false =>
    obtain ⟨d, e⟩ := testDriveFault_halted (s := s.heat sd set) h
    refine ⟨d, (takeOvertemp_new hn fun _ => ?_).trans e⟩
    rw [e]
    exact ⟨(heat_rests sd set hs).still sd, .inr h⟩

/-- With DRIVE_FAULT recorded, or no reason to record it, a flag changes nothing else. -/
theorem takeOvertemp_quiet {sd : Side} {set : Bool} {s : State} (hs : set = true → (s.roller sd).still = true)
    (hexit : s.lane.exitWait = false) (h : s.lane.causes.driveFault = anyOvertemp (s.heat sd set)) :
    takeOvertemp sd set s = s.heat sd set := by
  cases hn : set == (s.roller sd).overtemp with
  | true => rw [takeOvertemp, if_pos hn, eq_of_beq hn, heat_self]
  | false =>
    have e : testDriveFault (s.heat sd set) = s.heat sd set := by
      unfold testDriveFault
      rw [← h, show (s.heat sd set).lane = s.lane from rfl]
      cases s.lane.causes.driveFault <;> simp
    refine (takeOvertemp_new hn fun hset => ?_).trans e
    rw [e]
    exact ⟨(congrArg RollerSide.still (roller_setRoller s sd _)).trans (hs hset), .inl hexit⟩

/-! ### Interruptions (R79, R82) -/

/-- A test interrupted: the lane in the state with the causes, no side started or held, no step of the plan running, and
nothing else changed but what stops, notices and the flush touch. -/
structure Interrupted (s t : State) (new : LaneState) (causes : PauseCauses) : Prop where
  lane : t.lane = { s.lane with state := new, causes := causes }
  still : ∀ sd, (t.roller sd).still = true
  idle : t.engine.phase ≠ .running ∨ currentKind s = none
  within : Within s t

theorem recordCause_paused {add : PauseCauses → PauseCauses} {stops : Bool} {s : State}
    (h : s.lane.state = .testing ∨ s.lane.state = .pausing) :
    Interrupted s (recordCause add stops s) .paused (add s.lane.causes) := by
  have e : recordCause add stops s = enterLane .paused .pauseCause id
      (laneStopBoth (suspend (s.setLane fun l => { l with causes := add l.causes }))).1 := by
    rcases h with h | h <;> simp only [recordCause, h]
  rw [e]
  generalize hu : s.setLane (fun l => { l with causes := add l.causes }) = u
  have hlane : u.lane = { s.lane with causes := add s.lane.causes } := by rw [← hu]; rfl
  have hkind : currentKind u = currentKind s := by rw [← hu]; rfl
  have hw : Within s u := by rw [← hu]; rfl
  refine ⟨?_, fun sd => ?_, ?_, ?_⟩
  · rw [enterLane_lane id_speaks, laneStopBoth_lane, suspend_lane, hlane]
  · rw [enterLane_roller id_speaks]
    exact (laneStopBoth_roller _ sd).still
  · rw [enterLane_engine id_speaks, laneStopBoth_engine, ← hkind]
    exact suspend_idle u
  · exact ((hw.trans (suspend_within u)).trans (laneStopBoth_within _)).trans (enterLane_within id_speaks _ _ _)

theorem recordCause_stops {add : PauseCauses → PauseCauses} {s : State} (h : s.lane.state = .paused)
    (hp : s.engine.phase ≠ .running) : Interrupted s (recordCause add true s) .paused (add s.lane.causes) := by
  have e : recordCause add true s = (laneStopBoth (s.setLane fun l => { l with causes := add l.causes })).1 := by
    simp only [recordCause, h, if_true]
  rw [e]
  refine ⟨?_, fun sd => (laneStopBoth_roller _ sd).still, ?_, (setLane_within _ s).trans (laneStopBoth_within _)⟩
  · rw [laneStopBoth_lane, ← h]
    rfl
  · rw [laneStopBoth_engine]
    exact .inl hp

/-- An emergency stop with no side left started or held: HALTED, with ESTOP in the set (R82). -/
theorem estopLane_halts {s : State} (ho : s.lane.state ≠ .off) (hh : s.lane.state ≠ .halted) :
    (estopLane s).lane = { s.lane with state := .halted, remembered := some s.lane.state,
                                       causes := { s.lane.causes with estop := true } } ∧
      ((estopLane s).engine.phase ≠ .running ∨ currentKind s = none) ∧
      ∀ sd, (estopLane s).roller sd = (suspend s).roller sd := by
  have e : estopLane s = enterLane .halted .estop id ((suspend s).setLane fun l =>
      { l with causes := { l.causes with estop := true }, remembered := some s.lane.state }) := by
    unfold estopLane
    split
    next h => exact absurd h ho
    next h => exact absurd h hh
    all_goals rfl
  rw [e]
  refine ⟨?_, ?_, fun sd => by rw [enterLane_roller id_speaks]; rfl⟩
  · rw [enterLane_lane id_speaks, setLane_lane, suspend_lane]
  · rw [enterLane_engine id_speaks]
    exact suspend_idle s

/-! ### A STATUS that sets the emergency-stop flag -/

/-- A lane halted, from this control and engine on: no side started or held, no watch on; of the lane no more than
DRIVE_FAULT may still change. -/
structure HaltedAt (l : LaneControl) (e : EngineState) (t : State) : Prop where
  lane : ∃ d, t.lane = { l with causes := { l.causes with driveFault := d } }
  state : t.lane.state = .halted
  engine : t.engine = e
  still : ∀ sd, (t.roller sd).still = true
  watch : ∀ sd, (t.roller sd).watch = none

theorem HaltedAt.rests {l : LaneControl} {e : EngineState} {s t : State} (h : HaltedAt l e s) (k : Rests s t) :
    HaltedAt l e t where
  lane := by rw [k.lane]; exact h.lane
  state := by rw [k.lane]; exact h.state
  engine := k.engine.trans h.engine
  still := k.still
  watch := fun sd => k.watch sd (h.watch sd)

theorem HaltedAt.takeOvertemp {l : LaneControl} {e : EngineState} {s : State} (h : HaltedAt l e s) (sd : Side)
    (set : Bool) : HaltedAt l e (takeOvertemp sd set s) := by
  obtain ⟨d, ht⟩ := takeOvertemp_halted (set := set) (sd := sd) h.still h.state
  have r := h.rests (heat_rests sd set h.still)
  rw [ht]
  refine ⟨⟨d, ?_⟩, r.state, r.engine, r.still, r.watch⟩
  obtain ⟨d', hl⟩ := r.lane
  rw [setLane_lane, hl]

theorem takeEstop_halts {s : State} (hs : s.rollers.estop = false) (ho : s.lane.state ≠ .off)
    (hh : s.lane.state ≠ .halted) :
    ∃ e : EngineState, (e.phase ≠ .running ∨ currentKind s = none) ∧
      HaltedAt { s.lane with state := .halted, remembered := some s.lane.state,
                             causes := { s.lane.causes with estop := true } } e (takeEstop true s) := by
  have e1 : takeEstop true s = estopLane (estopRollers s) := by simp [takeEstop, hs]
  obtain ⟨x, u, v, y, n, l, r, e2, hl, hr, wl, wr⟩ := estopRollers_only s
  obtain ⟨lane, idle, roller⟩ := estopLane_halts (s := estopRollers s) (by rw [e2]; exact ho) (by rw [e2]; exact hh)
  have sides : ∀ sd, ((estopRollers s).roller sd).still = true ∧ ((estopRollers s).roller sd).watch = none := by
    rw [e2]
    intro sd
    cases sd with
    | left => exact ⟨hl.still, wl⟩
    | right => exact ⟨hr.still, wr⟩
  refine ⟨(estopLane (estopRollers s)).engine, ?_, ⟨(estopRollers s).lane.causes.driveFault, ?_⟩, ?_, by rw [e1],
    fun sd => ?_, fun sd => ?_⟩
  · have hk : currentKind (estopRollers s) = currentKind s := by rw [e2]; rfl
    rw [← hk]
    exact idle
  · rw [e1, lane, e2]
    rfl
  · rw [e1, lane]
  · rw [e1, roller]
    exact suspend_still (sides sd).1
  · rw [e1, roller]
    exact suspend_watch (sides sd).2

theorem maybeReturn_stays {s : State} (h : s.lane.state ≠ .paused ∨ noCause s.lane.causes = false) :
    maybeReturn s = s := by
  rcases h with h | h <;> simp [maybeReturn, h]

/-- The work of a STATUS that sets the emergency-stop flag (R82, R120). -/
theorem takeStatus_estop {cl ol cr or_ e : Byte} {s : State} (he : e ≠ 0) (hs : s.rollers.estop = false)
    (ho : s.lane.state ≠ .off) (hh : s.lane.state ≠ .halted) :
    ∃ g : EngineState, (g.phase ≠ .running ∨ currentKind s = none) ∧
      HaltedAt { s.lane with state := .halted, remembered := some s.lane.state,
                             causes := { s.lane.causes with estop := true } } g
        (takeStatus [cl, ol, cr, or_, e] s) := by
  obtain ⟨g, hg, h1⟩ := takeEstop_halts hs ho hh
  have h3 := (h1.takeOvertemp .left (decide (ol ≠ 0))).takeOvertemp .right (decide (or_ ≠ 0))
  have h4 := h3.rests (takeContactor_rests (sd := .left) (on := decide (cl ≠ 0)) h3.still (.inr h3.state))
  have h5 := h4.rests (takeContactor_rests (sd := .right) (on := decide (cr ≠ 0)) h4.still (.inr h4.state))
  refine ⟨g, hg, ?_⟩
  rw [takeStatus_bytes, decide_eq_true he, maybeReturn_stays (.inl (by rw [h5.state]; decide))]
  exact h5

/-! ### A STATUS that sets an overtemperature flag -/

theorem Interrupted.rests {s t u : State} {new : LaneState} {causes : PauseCauses} (h : Interrupted s t new causes)
    (k : Rests t u) : Interrupted s u new causes :=
  ⟨k.lane.trans h.lane, k.still, by rw [k.engine]; exact h.idle, h.within.trans k.within⟩

theorem Interrupted.ofHeat {s t : State} {sd : Side} {set : Bool} {new : LaneState} {causes : PauseCauses}
    (h : Interrupted (s.heat sd set) t new causes) : Interrupted s t new causes :=
  ⟨h.lane, h.still, h.idle, Within.trans (t := s.heat sd set) rfl h.within⟩

/-- A test is under way, in a state in which DRIVE_FAULT is recorded with its stops (R76, R79). -/
structure Records (s : State) : Prop where
  exitWait : s.lane.exitWait = false
  vehicle : s.vehicle.isSome = true
  clear : s.lane.causes.driveFault = false
  enabled : (settings s).driveFaultEnable = true
  state : s.lane.state = .testing ∨ s.lane.state = .pausing ∨
    s.lane.state = .paused ∧ s.engine.phase ≠ .running

theorem Records.heat {s : State} (h : Records s) (sd : Side) (set : Bool) : Records (s.heat sd set) :=
  ⟨h.1, h.2, h.3, h.4, h.5⟩

theorem testDriveFault_records {s : State} (h : Records s) (hot : anyOvertemp s = true) :
    Interrupted s (testDriveFault s) .paused (addDriveFault s.lane.causes) := by
  obtain ⟨-, hv, hc, he, hst⟩ := h
  have under : testUnderWay s = true := by
    rcases hst with hst | hst | ⟨hst, -⟩ <;> simp [testUnderWay, hv, hst, inTest]
  have e : testDriveFault s = recordCause addDriveFault true s := by
    simp [testDriveFault, hc, under, he, hot]
  rw [e]
  rcases hst with hst | hst | ⟨hst, hp⟩
  · exact recordCause_paused (.inl hst)
  · exact recordCause_paused (.inr hst)
  · exact recordCause_stops hst hp

theorem takeOvertemp_records {sd : Side} {s : State} (h : Records s) (hn : (s.roller sd).overtemp = false) :
    Interrupted s (takeOvertemp sd true s) .paused (addDriveFault s.lane.causes) := by
  have hot : anyOvertemp (s.heat sd true) = true := by
    cases sd <;> simp [anyOvertemp, State.heat, State.setRoller, State.roller]
  have i := testDriveFault_records (h.heat sd true) hot
  have hexit : (testDriveFault (s.heat sd true)).lane.exitWait = false := by rw [i.lane]; exact h.exitWait
  rw [takeOvertemp_new (by rw [hn]; rfl) fun _ => ⟨i.still sd, .inl hexit⟩]
  exact i.ofHeat

/-- The flags of the two sides taken, one of them newly set: DRIVE_FAULT is recorded, at the first of them (R76,
R79). -/
theorem takeOvertemp_both {hotL hotR : Bool} {s : State} (h : Records s)
    (new : hotL = true ∧ (s.roller .left).overtemp = false ∨ hotR = true ∧ (s.roller .right).overtemp = false) :
    Interrupted s (takeOvertemp .right hotR (takeOvertemp .left hotL s)) .paused (addDriveFault s.lane.causes) := by
  by_cases hl : hotL = true ∧ (s.roller .left).overtemp = false
  · obtain ⟨rfl, hn⟩ := hl
    have i := takeOvertemp_records h hn
    have hot : ((takeOvertemp .left true s).roller .left).overtemp = true :=
      ((takeOvertemp_along .left true s).flags .left).2
    generalize takeOvertemp .left true s = t at i hot ⊢
    have recorded : t.lane.causes.driveFault = true := by rw [i.lane]; rfl
    have still : anyOvertemp (t.heat .right hotR) = true := Bool.or_eq_true_iff.mpr (.inl hot)
    rw [takeOvertemp_quiet (fun _ => i.still .right) (by rw [i.lane]; exact h.exitWait) (recorded.trans still.symm)]
    exact i.rests (heat_rests .right hotR i.still)
  · obtain ⟨rfl, hn⟩ := new.resolve_left hl
    have left : takeOvertemp .left hotL s = s.heat .left hotL := by
      cases hs : hotL == (s.roller .left).overtemp with
      | true => rw [takeOvertemp, if_pos hs, eq_of_beq hs, heat_self]
      | false =>
        have off : hotL = false := by
          cases hotL with
          | false => rfl
          | true => exact absurd ⟨rfl, (Bool.not_eq_true _).mp fun e => by rw [e] at hs; cases hs⟩ hl
        subst off
        refine takeOvertemp_quiet (fun e => nomatch e) h.exitWait (h.clear.trans ?_)
        exact ((Bool.false_or _).trans hn).symm
    rw [left]
    exact (takeOvertemp_records (sd := .right) (h.heat .left hotL) hn).ofHeat

theorem takeStatus_driveFault {cl ol cr or_ : Byte} {s : State} (hs : s.rollers.estop = false) (h : Records s)
    (new : ol ≠ 0 ∧ (s.roller .left).overtemp = false ∨ or_ ≠ 0 ∧ (s.roller .right).overtemp = false) :
    Interrupted s (takeStatus [cl, ol, cr, or_, 0] s) .paused (addDriveFault s.lane.causes) := by
  have noEstop : takeEstop (decide ((0 : Byte) ≠ 0)) s = s := by simp [takeEstop, hs]
  have i3 := takeOvertemp_both (hotL := decide (ol ≠ 0)) (hotR := decide (or_ ≠ 0)) h (by simpa using new)
  have e3 := congrArg LaneControl.exitWait i3.lane
  have i4 := i3.rests (takeContactor_rests (sd := .left) (on := decide (cl ≠ 0)) i3.still (.inl (e3.trans h.exitWait)))
  have e4 := congrArg LaneControl.exitWait i4.lane
  have i5 := i4.rests (takeContactor_rests (sd := .right) (on := decide (cr ≠ 0)) i4.still (.inl (e4.trans h.exitWait)))
  have recorded : noCause (addDriveFault s.lane.causes) = false := by simp [noCause, addDriveFault]
  rw [takeStatus_bytes, noEstop, maybeReturn_stays (.inr (by rw [i5.lane]; exact recorded))]
  exact i5

/-! ### HEAD_STALE (R76, R77) -/

theorem neededStale_iff (s : State) : neededStale s = true ↔ ∃ k, currentKind s = some k ∧
    ∃ q ∈ neededBy k, (mapped s q).isSome = true ∧ (s.qty q).stale = true := by
  simp [neededStale, Option.any_eq_true, List.any_eq_true]

theorem closeAndReport_state (c : Cadence) (o : OpenTick) (q : Quantity) (s : State) : (closeAndReport c o q s).1 =
    if ((closeQuantity c o q s).1.qty q).stale = (s.qty q).stale then (closeQuantity c o q s).1
    else testHeadStale (closeQuantity c o q s).1 := by
  unfold closeAndReport
  by_cases h : ((closeQuantity c o q s).1.qty q).stale = (s.qty q).stale
  · simp [h]
  · simp [h, Ne.symm h]

theorem testHeadStale_stays {s : State} (hc : s.lane.causes.headStale = true) (hn : neededStale s = true) :
    testHeadStale s = s := by
  simp [testHeadStale, hc, hn]

theorem testHeadStale_removed {s : State} (hc : s.lane.causes.headStale = true) (hn : ¬ neededStale s = true) :
    testHeadStale s = { s with lane := { s.lane with causes := { s.lane.causes with headStale := false } } } := by
  simp only [testHeadStale, hc, if_true, if_neg hn]
  rfl

theorem testHeadStale_untested {s : State} (hc : s.lane.causes.headStale = false)
    (h : ¬ (testUnderWay s = true ∧ (settings s).headStaleEnable = true ∧ neededStale s = true)) :
    testHeadStale s = s := by
  have untested : ¬ (testUnderWay s && (settings s).headStaleEnable && neededStale s) = true := by
    simp only [Bool.and_eq_true, and_assoc]
    exact h
  rw [testHeadStale, hc, if_neg Bool.false_ne_true, if_neg untested]

theorem testHeadStale_records {s : State} (hc : s.lane.causes.headStale = false) (hu : testUnderWay s = true)
    (he : (settings s).headStaleEnable = true) (hn : neededStale s = true) :
    testHeadStale s = recordCause addHeadStale false s := by
  simp [testHeadStale, hc, hu, he, hn]

theorem recordCause_added {add : PauseCauses → PauseCauses} {s : State}
    (h : s.lane.state = .paused ∨ s.lane.state = .halted) :
    recordCause add false s = s.setLane fun l => { l with causes := add l.causes } := by
  unfold recordCause
  rcases h with h | h
  · rw [h]
    rfl
  · rw [h]

/-! ### Contactors (R119) -/

theorem contactor_held {sd : Side} {on : Bool} {s : State}
    (h : on = false ∨ ((s.roller sd).state ≠ .stopped ∧ (s.roller sd).state ≠ .held) ∨
      (s.roller sd).outstanding = true) :
    contactor sd on s = (s.setRoller sd { s.roller sd with contactor := on }, []) := by
  unfold contactor
  dsimp only
  rw [roller_setRoller]
  rcases h with h | ⟨h1, h2⟩ | h
  · simp [h]
  · simp [h1, h2]
  · simp [h]

theorem contactor_uncommanded {sd : Side} {s : State} (ho : (s.roller sd).outstanding = false)
    (h : (s.roller sd).state = .stopped ∨ (s.roller sd).state = .held) :
    contactor sd true s =
      (policyNotice sd .supervisor .uncommanded (some .contactor)
        (if (s.roller sd).state == .held then
          cancelHeld sd .contactor .coasting (offerStop sd (s.setRoller sd { s.roller sd with contactor := true })).1
        else
          let t := (offerStop sd (s.setRoller sd { s.roller sd with contactor := true })).1
          t.setRoller sd { t.roller sd with state := .coasting }),
        if (s.roller sd).state == .held then [.refused sd] else []) := by
  unfold contactor
  dsimp only
  rw [roller_setRoller]
  have : ((s.roller sd).state == .stopped || (s.roller sd).state == .held) = true := by
    rcases h with h | h <;> simp [h]
  simp only [ho, this]
  rfl

theorem contactor_stopped {sd : Side} {s : State} (ho : (s.roller sd).outstanding = false)
    (hst : (s.roller sd).state = .stopped) :
    let o := (offerStop sd (s.setRoller sd { s.roller sd with contactor := true })).1
    contactor sd true s = (policyNotice sd .supervisor .uncommanded (some .contactor)
      (o.setRoller sd { o.roller sd with state := .coasting }), []) := by
  rw [contactor_uncommanded ho (.inl hst), hst]
  rfl

theorem contactor_cancels {sd : Side} {h : HeldStart} {s : State} (ho : (s.roller sd).outstanding = false)
    (hst : (s.roller sd).state = .held) (hh : (s.roller sd).held = some h) :
    let o := (offerStop sd (s.setRoller sd { s.roller sd with contactor := true })).1
    contactor sd true s = (policyNotice sd .supervisor .uncommanded (some .contactor)
      (policyNotice sd h.origin .cancelled (some .contactor)
        (o.setRoller sd { o.roller sd with state := .coasting, held := none, testDue := false })), [.refused sd]) := by
  obtain ⟨b, stop⟩ := offerStop_roller sd (s.setRoller sd { s.roller sd with contactor := true })
  rw [roller_setRoller] at stop
  have held : ((s.roller sd).state == .held) = true := by rw [hst]; rfl
  have origin : ((offerStop sd (s.setRoller sd { s.roller sd with contactor := true })).1.roller sd).held = some h := by
    rw [stop]
    exact hh
  rw [contactor_uncommanded ho (.inr hst), if_pos held, if_pos held, cancelHeld, origin]
  rfl

/-- A frame offered at the station port, whose transmitter is idle only with nothing waiting (R5, R6). -/
theorem offerCounted_station_eq {s : State} (f : Frame) (h : s.station.tx = .idle → s.station.queue = []) :
    offerCounted .station f s =
      if s.station.tx = .idle then { s with station := { s.station with tx := .taken f } }
      else if s.station.queue.length < 32 then
        { s with station := { s.station with queue := s.station.queue ++ [f] } }
      else s.countPort .station fun c => { c with txOverrun := c.txOverrun + 1 } := by
  by_cases ht : s.station.tx = .idle
  · rw [if_pos ht, offerCounted_quiet (p := .station) f ⟨ht, h ht⟩]
    rfl
  · rw [if_neg ht, offerCounted_busy (p := .station) f ht]
    rfl

/-- A STATUS that changes no flag: the contactors are taken, L before R (R119). -/
theorem takeStatus_contactors {cl ol cr or_ e : Byte} {s : State} (he : s.rollers.estop = decide (e ≠ 0))
    (hl : (s.roller .left).overtemp = decide (ol ≠ 0)) (hr : (s.roller .right).overtemp = decide (or_ ≠ 0)) :
    takeStatus [cl, ol, cr, or_, e] s =
      maybeReturn (takeContactor .right (decide (cr ≠ 0)) (takeContactor .left (decide (cl ≠ 0)) s)) := by
  rw [takeStatus_bytes, ← he, ← hl, ← hr, takeEstop, if_pos (beq_self_eq_true _), takeOvertemp,
    takeOvertemp, if_pos (beq_self_eq_true _), if_pos (beq_self_eq_true _)]

/-- The state in which the supervisor takes a STATUS: the frame is gone from the FIFO, and its copy was offered. -/
structure Copied (s u : State) : Prop where
  only : u = { s with head := u.head, station := u.station, live := u.live }
  fifo : u.head.fifo = s.head.fifo.tail

theorem exec_status_copied {f : Frame} {cl ol cr or_ e : Byte} {s : State} (hf : s.head.fifo.head? = some f)
    (h : isCabinetStatus s f [cl, ol, cr, or_, e] = true) :
    ∃ u, Copied s u ∧ exec .statusFrame s = .next (takeStatus [cl, ol, cr, or_, e] u) := by
  obtain ⟨x, n, ec, -⟩ := offerCounted_station_only (statusCopy f) (s.dropFirst .head)
  refine ⟨_, ⟨?_, ?_⟩, exec_status hf h⟩
  · rw [ec]
    rfl
  · rw [ec]
    rfl

theorem Copied.currentKind {s u : State} (h : Copied s u) : currentKind u = currentKind s := by rw [h.only]; rfl

/-- Settles O41: the flags in the order of R119, and what each of them sets off. -/
theorem statusOfTheDriveCabinet : Obligations.StatusOfTheDriveCabinet := by
  unfold Obligations.StatusOfTheDriveCabinet
  refine ⟨fun f cl ol cr or_ e s hf h he hs ho hh => ?_,
    fun f s hf => ⟨fun cl ol cr or_ e h => ?_, fun h1 h2 h3 h4 h5 => ?_⟩,
    fun f cl ol cr or_ s hf h hs hexit hv hc hen hnew hst => ?_, fun c o q s => closeAndReport_state c o q s,
    fun s => ?_, fun f cl ol cr or_ e s hf h hidle => ?_, fun sd on s => ⟨contactor_held, fun hon ho => ⟨?_, ?_⟩⟩⟩
  · obtain ⟨u, hu, hx⟩ := exec_status_copied hf h
    have lane : u.lane = s.lane := by rw [hu.only]
    have rollers : u.rollers = s.rollers := by rw [hu.only]
    obtain ⟨g, hg, ht⟩ := takeStatus_estop (cl := cl) (ol := ol) (cr := cr) (or_ := or_) he
      (s := u) (by rw [rollers, hs]) (by rw [lane]; exact ho) (by rw [lane]; exact hh)
    obtain ⟨estop, cL, cR, hL, hR, -, -⟩ := takeStatus_flags cl ol cr or_ e u
    obtain ⟨d, hlane⟩ := ht.lane
    rw [lane] at hlane
    refine ⟨_, hx, ?_, fun sd => ⟨ht.still sd, ht.watch sd⟩, cL, cR, hL, hR, ht.state, by rw [hlane], by rw [hlane],
      by rw [hlane], by rw [hlane], ?_⟩
    · rw [estop, decide_eq_true he]
    · rw [ht.engine, ← hu.currentKind]
      exact hg
  · obtain ⟨u, hu, hx⟩ := exec_status_copied hf h
    obtain ⟨estop, cL, cR, hL, hR, fifo, time⟩ := takeStatus_flags cl ol cr or_ e u
    exact ⟨_, hx, estop, cL, cR, hL, hR, fifo.trans hu.fifo, by rw [time, hu.only]⟩
  · rw [exec_statusFrame hf h1 h2 h3 h4, takeStatusFrame, if_neg h5]
    rfl
  · obtain ⟨u, hu, hx⟩ := exec_status_copied hf h
    have lane : u.lane = s.lane := by rw [hu.only]
    have roller : u.roller = s.roller := by rw [hu.only]; rfl
    have records : Records u := ⟨by rw [lane]; exact hexit, by rw [hu.only]; exact hv, by rw [lane]; exact hc,
      by rw [hu.only]; exact hen, by rw [hu.only]; exact hst⟩
    have i := takeStatus_driveFault (cl := cl) (cr := cr) (or_ := or_) (ol := ol) (s := u)
      (by rw [hu.only]; exact hs) records
      (by rw [roller]; exact hnew)
    have within : Within u _ := i.within
    refine ⟨_, hx, ?_, i.still, ?_, ?_, ?_, ?_, ?_⟩
    · rw [i.lane, lane]
      rfl
    · rw [← hu.currentKind]
      exact i.idle
    all_goals
      rw [within, hu.only]
  · dsimp only
    rw [← neededStale_iff]
    refine ⟨testHeadStale_stays, testHeadStale_removed, testHeadStale_untested,
      fun hc hu he hn => ⟨fun hst => ?_, fun hst => ?_⟩⟩
    · rw [testHeadStale_records hc hu he hn]
      exact recordCause_added hst
    · rw [testHeadStale_records hc hu he hn]
      have i := recordCause_paused (add := addHeadStale) (stops := false) hst
      obtain ⟨k, hk, -⟩ := (neededStale_iff s).mp hn
      exact ⟨i.lane, i.still, i.idle.resolve_right (by rw [hk]; simp), i.within⟩
  · obtain ⟨-, -, hk, -, hp, -⟩ := isCabinetStatus_iff.mp h
    rw [exec_status hf h, statusCopy, hk, hp]
    have rollers : ∀ copy, (offerCounted .station copy (s.dropFirst .head)).rollers = s.rollers := fun copy => by
      obtain ⟨x, n, e, -⟩ := offerCounted_station_only copy (s.dropFirst .head)
      rw [e]
      rfl
    have copied := fun copy => offerCounted_station_eq (s := s.dropFirst .head) copy hidle
    refine ⟨congrArg (fun u => Host.Outcome.next (takeStatus _ u)) (copied _), fun hs hl hr => ?_⟩
    refine Eq.trans (congrArg Host.Outcome.next (takeStatus_contactors ?_ ?_ ?_))
      (congrArg (fun u => Host.Outcome.next (maybeReturn (takeContactor .right _ (takeContactor .left _ u))))
        (copied _))
    · rw [rollers]
      exact hs
    · exact (congrArg (fun x : Rollers => (x.sides.get .left).overtemp) (rollers _)).trans hl
    · exact (congrArg (fun x : Rollers => (x.sides.get .right).overtemp) (rollers _)).trans hr
  · subst hon
    exact contactor_stopped ho
  · subst hon
    exact fun h => contactor_cancels ho

end Sys2Proof.Machine
end

section
/-! LANE_RESET (R10, R45, R61, R85, R168). -/

namespace Sys2Proof.Machine

/-! ### Requests (R181) -/

theorem asks_taken {s : State} {f : Frame} {payload : List Byte} (h : s.asks f payload) :
    taken .station .mgmt s = some (f, s.dropFirst .station) ∧ f.payload = payload := by
  obtain ⟨hf, hr⟩ := h
  simp only [isRequest, Bool.and_eq_true, beq_iff_eq] at hr
  obtain ⟨⟨⟨hs, hd⟩, hk⟩, hp⟩ := hr
  exact ⟨taken_eq (p := .station) hf (route_mgmt s hs hd hk), hp⟩

theorem takeRequest_asks {s : State} {f : Frame} {payload : List Byte} (h : s.asks f payload)
    {owns : List Byte → Bool} (ho : owns payload = true) : takeRequest owns s = some (f, s.dropFirst .station) := by
  obtain ⟨ht, hp⟩ := asks_taken h
  simp only [takeRequest, ht, hp, ho, if_true]

theorem onRequest_asks {s : State} {f : Frame} {code : Byte} {content : List Byte} (h : s.asks f (code :: content))
    (handle : Nat → List Byte → State → State) :
    onRequest code handle s = handle f.src.toNat content (s.dropFirst .station) := by
  unfold onRequest
  rw [takeRequest_asks h (by simp)]
  exact congrArg (fun l => handle f.src.toNat (l.drop 1) (s.dropFirst .station)) (asks_taken h).2

theorem onSelected_asks {s : State} {f : Frame} {code selector : Byte} (h : s.asks f [code, selector])
    (named : Byte → Bool) (handle : Nat → List Byte → State → State) :
    onSelected code selector named handle s = handle f.src.toNat [selector] (s.dropFirst .station) := by
  unfold onSelected
  rw [takeRequest_asks h (by simp)]
  exact congrArg (fun l => handle f.src.toNat (l.drop 1) (s.dropFirst .station)) (asks_taken h).2

/-! ### Emptied queues (R10) -/

/-- A side whose waiting START was emptied with its queue, or that had none (R10). -/
def emptiedRoller (queued : Bool) (r : RollerSide) : RollerSide :=
  if queued then
    if r.state == .spinningUp then { r.stopAs .stopped with outstanding := false } else { r with outstanding := false }
  else r

theorem emptiedSide_eq (sd : Side) (s : State) :
    emptiedSide sd s = s.setRoller sd (emptiedRoller (startQueued sd s) (s.roller sd)) := by
  unfold emptiedSide emptiedRoller
  split
  · rfl
  · exact (setRoller_roller s sd).symm

theorem emptiedRoller_state (queued : Bool) (r : RollerSide) :
    (emptiedRoller queued r).state = r.state ∨ (emptiedRoller queued r).state = .stopped := by
  unfold emptiedRoller
  split
  · split
    · exact .inr rfl
    · exact .inl rfl
  · exact .inl rfl

theorem emptiedRoller_flags (queued : Bool) (r : RollerSide) :
    (emptiedRoller queued r).history = r.history ∧ (emptiedRoller queued r).contactor = r.contactor ∧
      (emptiedRoller queued r).overtemp = r.overtemp := by
  unfold emptiedRoller
  split
  · split
    · exact ⟨rfl, rfl, rfl⟩
    · exact ⟨rfl, rfl, rfl⟩
  · exact ⟨rfl, rfl, rfl⟩

/-- Item 1 of R85: what stood in the transmit queues and the batches does not matter, but for the STARTs. -/
theorem emptyQueues_eq (s : State) : emptyQueues s =
    { s with
      head := { s.head with queue := [] }
      station := { s.station with queue := [] }
      certs := { s.certs with due := s.certs.due || !s.certs.queue.isEmpty }
      quantities := s.quantities.map fun x => { x with batch := Batch.empty }
      rollers := { s.rollers with sides :=
        { left := emptiedRoller (startQueued .left s) (s.roller .left),
          right := emptiedRoller (startQueued .right s) (s.roller .right) } } } := by
  unfold emptyQueues
  rw [emptiedSide_eq .right, emptiedSide_eq .left]
  rfl

theorem exec_laneReset {s : State} {f : Frame} (h : s.asks f [0x08]) :
    exec .laneReset s = .next (laneReset f.src.toNat (s.dropFirst .station)) :=
  congrArg Host.Outcome.next (onRequest_asks h takeLaneReset)

/-- The outcome of a reset does not depend on what stood in the station queue. -/
theorem laneReset_station (src : Nat) (s : State) (queue : List Frame) :
    laneReset src { s with station := { s.station with queue } } = laneReset src s := by
  have e : emptyQueues { s with station := { s.station with queue } } = emptyQueues s := by
    rw [emptyQueues_eq, emptyQueues_eq]
    rfl
  unfold laneReset
  rw [e]

/-! ### The lane made OFF (R45, R85) -/

/-- The state of a reset before its sync broadcast: the queues emptied, the sides stopped, the vehicle discarded, and the
cadences stopped (R45, R85). -/
def resetBase (s : State) : State :=
  stopCadences ((resetVehicle (laneStopBoth (emptyQueues s)).1).setLane fun l => { l with state := .off })

theorem laneReset_eq (src : Nat) (s : State) : laneReset src s =
    certSendIfRoom (laneStateNotice s.lane.state .laneReset (reply src 0x08 statusDone []
      (applyPending .laneReset
        (if s.lane.state == .off then resetBase s else syncBroadcast .streamOff .sequence (resetBase s))))) := rfl

/-- A side before and after it was emptied and stopped. -/
structure ResetSide (a b : RollerSide) : Prop where
  still : b.still = true
  history : b.history = a.history
  contactor : b.contactor = a.contactor
  overtemp : b.overtemp = a.overtemp

/-- The ports after a reset's first half: their FIFOs as they were, their queues empty where nothing is offered (R10). -/
structure ResetPorts (s : State) (x y : PortState) : Prop where
  headFifo : x.fifo = s.head.fifo
  stationFifo : y.fifo = s.station.fifo
  head : s.head.tx ≠ .idle → x = { s.head with queue := [] }
  station : (∀ sd, (s.roller sd).state ≠ .held) → y = { s.station with queue := [] }

/-- The parts of a reset's first half: the ports, the sides and the counts that stopping the sides replaces. -/
theorem resetBase_only (s : State) : ∃ x u v y n l r,
    resetBase s = stopCadences ((resetVehicle ((emptyQueues s).stoppingBoth x u v y n l r)).setLane fun l =>
      { l with state := .off }) ∧
    ResetPorts s x y ∧ ResetSide (s.roller .left) l ∧ ResetSide (s.roller .right) r := by
  obtain ⟨x, u, v, y, n, l, r, e, hl, hr⟩ := laneStopBoth_only (emptyQueues s)
  have along := laneStopBoth_along (emptyQueues s)
  have head := laneStopBoth_head_busy (s := emptyQueues s)
  have station := laneStopBoth_station (s := emptyQueues s)
  have state : ∀ sd, ((emptyQueues s).roller sd).state = (s.roller sd).state ∨
      ((emptyQueues s).roller sd).state = .stopped := fun sd => by
    rw [emptyQueues_eq]
    cases sd with
    | left => exact emptiedRoller_state _ _
    | right => exact emptiedRoller_state _ _
  rw [e] at along head station
  refine ⟨x, u, v, y, n, l, r, by rw [resetBase, e], ⟨?_, ?_, fun h => ?_, fun hn => ?_⟩, ?_, ?_⟩
  · exact along.head.fifo.trans (by rw [emptyQueues_eq])
  · exact along.station.fifo.trans (by rw [emptyQueues_eq])
  · refine (head (by rw [emptyQueues_eq]; exact h)).trans ?_
    rw [emptyQueues_eq]
    rfl
  · refine (station fun sd hs => ?_).trans (by rw [emptyQueues_eq])
    rcases state sd with h | h
    · exact hn sd (h.symm.trans hs)
    · exact nomatch h.symm.trans hs
  · rw [emptyQueues_eq] at hl
    obtain ⟨h1, h2, h3⟩ := emptiedRoller_flags (startQueued .left s) (s.roller .left)
    exact ⟨hl.still, hl.history.trans h1, hl.contactor.trans h2, hl.overtemp.trans h3⟩
  · rw [emptyQueues_eq] at hr
    obtain ⟨h1, h2, h3⟩ := emptiedRoller_flags (startQueued .right s) (s.roller .right)
    exact ⟨hr.still, hr.history.trans h1, hr.contactor.trans h2, hr.overtemp.trans h3⟩

/-- What a reset has made of the state before its sync broadcast. -/
structure ResetTo (s t : State) : Prop where
  ports : ResetPorts s t.head t.station
  lane : t.lane = { s.lane with state := .off, remembered := none, causes := PauseCauses.empty, autoTest := .clear,
                                exitWait := false }
  vehicle : t.vehicle = none
  guide : t.engine.pendingGuide = none
  cad : ∀ c, t.cad c = { s.cad c with running := false, openTick := none, carryDue := false }
  qty : ∀ q, t.qty q = { s.qty q with batch := Batch.empty, pendingRaw := none, excused := false }
  side : ∀ sd, ResetSide (s.roller sd) (t.roller sd)
  estop : t.rollers.estop = s.rollers.estop
  kept : s.vehicle = none → t.live.cancelled = s.live.cancelled ∧ t.plate = s.plate ∧ t.clock = s.clock
  discarded : s.vehicle.isSome = true → t.live.cancelled = s.live.cancelled + 1 ∧ t.engine = EngineState.reset ∧
    t.eval = Evaluator.reset ∧ t.plate = PlateUnit.reset ∧ t.clock = { s.clock with live := 0, hold := 0 }
  time : t.clock.laneTime = s.clock.laneTime
  banks : t.banks = s.banks ∧ t.working = s.working ∧ t.shadow = s.shadow
  certs : t.certs = { s.certs with due := s.certs.due || !s.certs.queue.isEmpty }
  latched : t.latched = s.latched ∧ t.latchTime = s.latchTime
  log : t.syncLog = s.syncLog

theorem ResetSide.watchOff {a b : RollerSide} (h : ResetSide a b) : ResetSide a b.watchOff :=
  ⟨h.still, h.history, h.contactor, h.overtemp⟩

/-- The lane control of a reset (R85). -/
def LaneControl.forgotten (l : LaneControl) : LaneControl :=
  { l with causes := PauseCauses.empty, remembered := none, autoTest := .clear, exitWait := false }

theorem resetVehicle_none {s : State} (h : s.vehicle = none) : resetVehicle s =
    { s with engine := { s.engine with pendingGuide := none }, lane := s.lane.forgotten } := by
  have : ¬ s.vehicle.isSome = true := by rw [h]; exact Bool.false_ne_true
  unfold resetVehicle
  rw [if_neg this]
  rfl

theorem discard_eq (s : State) : discard s =
    { s with
      engine := { EngineState.reset with pendingGuide := s.engine.pendingGuide }
      eval := Evaluator.reset, plate := PlateUnit.reset, vehicle := none
      clock := { s.clock with live := 0, hold := 0 }
      lane := { s.lane with autoTest := .clear }
      rollers := (watchesOff s).rollers } := rfl

theorem resetVehicle_some {s : State} (h : s.vehicle.isSome = true) : resetVehicle s =
    { s with
      engine := EngineState.reset, eval := Evaluator.reset, plate := PlateUnit.reset, vehicle := none
      clock := { s.clock with live := 0, hold := 0 }
      lane := s.lane.forgotten
      live := { s.live with cancelled := s.live.cancelled + 1 }
      rollers := (watchesOff s).rollers } := by
  unfold resetVehicle
  rw [if_pos h, discard_eq]
  rfl

theorem getD_map_reset {f : QuantityState → QuantityState} (hf : f QuantityState.reset = QuantityState.reset)
    (l : List QuantityState) (i : Nat) :
    (l.map f).getD i QuantityState.reset = f (l.getD i QuantityState.reset) := by
  conv_lhs => rw [← hf]
  exact List.getD_map ..

theorem resetBase_qty (s : State) (l : List QuantityState) (h : l = s.quantities) (q : Quantity) :
    (((l.map fun x : QuantityState => { x with batch := Batch.empty }).map fun x : QuantityState =>
      { x with pendingRaw := none, excused := false }).getD (quantityCode q) QuantityState.reset) =
        { s.qty q with batch := Batch.empty, pendingRaw := none, excused := false } := by
  rw [getD_map_reset rfl, getD_map_reset rfl, h]
  rfl

theorem resetBase_to (s : State) : ResetTo s (resetBase s) := by
  obtain ⟨x, u, v, y, n, l, r, e, hp, hl, hr⟩ := resetBase_only s
  have hqty := resetBase_qty s s.quantities rfl
  rw [emptyQueues_eq] at e
  have hcad : ∀ t : State, t.cadA = stopCadence s.cadA → t.cadB = stopCadence s.cadB → ∀ c, t.cad c =
      { s.cad c with running := false, openTick := none, carryDue := false } := fun t ha hb c => by
    cases c with
    | a => exact ha
    | b => exact hb
  have hside : ∀ t : State, ResetSide (s.roller .left) (t.roller .left) →
      ResetSide (s.roller .right) (t.roller .right) → ∀ sd, ResetSide (s.roller sd) (t.roller sd) := fun t a b sd => by
    cases sd with
    | left => exact a
    | right => exact b
  cases hv : s.vehicle with
  | none =>
    rw [resetVehicle_none (by exact hv)] at e
    rw [e]
    exact {
      ports := hp, lane := rfl, vehicle := hv, guide := rfl, cad := hcad _ rfl rfl, qty := hqty, side := hside _ hl hr
      estop := rfl
      kept := fun _ => ⟨rfl, rfl, rfl⟩
      discarded := fun h => nomatch hv.symm.trans (Option.some_get h).symm
      time := rfl, banks := ⟨rfl, rfl, rfl⟩, certs := rfl, latched := ⟨rfl, rfl⟩, log := rfl }
  | some w =>
    rw [resetVehicle_some (by exact congrArg Option.isSome hv)] at e
    rw [e]
    exact {
      ports := hp, lane := rfl, vehicle := rfl, guide := rfl, cad := hcad _ rfl rfl, qty := hqty
      side := hside _ hl.watchOff hr.watchOff, estop := rfl
      kept := fun h => nomatch hv.symm.trans h
      discarded := fun _ => ⟨rfl, rfl, rfl, rfl, rfl⟩
      time := rfl, banks := ⟨rfl, rfl, rfl⟩, certs := rfl, latched := ⟨rfl, rfl⟩, log := rfl }

end Sys2Proof.Machine
end

section
/-! LANE_RESET, continued: the sync broadcast, the pending switch and the answers (R61, R85, R168, R177). -/

namespace Sys2Proof.Machine

/-! ### The sync broadcast (R177) -/

/-- STREAM_OFF is logged, and offered to the heads (R177). -/
theorem issueSync_streamOff (source : SyncSource) (s : State) : issueSync .streamOff source s =
    (offerCounted .head (originate 63 kindSync [3]) { s with syncLog := s.logged .streamOff source },
      decide (s.syncLog.entries.length < 32)) := by
  unfold issueSync
  rw [logSync_eq]
  rfl

theorem syncNotice_speaks (code : SyncCode) (source : SyncSource) (logged : Bool) (s : State) :
    Speaks s (syncNotice code source logged s) := by
  unfold syncNotice
  exact notice_speaks _ _ s

/-- A frame offered at the head port: it may be taken, or join the queue of a busy port, or be counted as lost (R5). -/
theorem offerCounted_head_room (f : Frame) (s : State) :
    ∃ x u v l, offerCounted .head f s = { s with head := x, urgent := u, headPlace := v, live := l } ∧
      l.cancelled = s.live.cancelled ∧
      (s.head.tx ≠ .idle → s.head.queue.length < 16 → x = { s.head with queue := s.head.queue ++ [f] }) := by
  by_cases hb : s.head.tx ≠ .idle ∧ s.head.queue.length < 16
  · rw [offerCounted_busy (p := .head) _ hb.1]
    exact ⟨_, _, _, s.live, if_pos hb.2, rfl, fun _ _ => rfl⟩
  · obtain ⟨x, u, v, n, e, -⟩ := offerCounted_head_only f s
    exact ⟨x, u, v, _, e, rfl, fun h1 h2 => absurd ⟨h1, h2⟩ hb⟩

/-- What a broadcast of STREAM_OFF replaces. -/
theorem syncBroadcast_streamOff_only (source : SyncSource) (s : State) :
    ∃ x u v l, Speaks { s with head := x, urgent := u, headPlace := v, live := l
                               syncLog := s.logged .streamOff source }
        (syncBroadcast .streamOff source s) ∧ l.cancelled = s.live.cancelled ∧
      (s.head.tx ≠ .idle → s.head.queue.length < 16 →
        x = { s.head with queue := s.head.queue ++ [originate 63 kindSync [3]] }) := by
  obtain ⟨x, u, v, l, e, hl, hx⟩ := offerCounted_head_room (originate 63 kindSync [3])
    { s with syncLog := s.logged .streamOff source }
  refine ⟨x, u, v, l, ?_, hl, hx⟩
  unfold syncBroadcast
  rw [issueSync_streamOff, ← e]
  exact syncNotice_speaks _ _ _ _

/-! ### The pending switch (R43, R57) -/

/-- What the ending of STALE conditions at a switch replaces. -/
structure ClearsStale (s t : State) : Prop where
  only : t = { s with station := t.station, quantities := t.quantities, live := t.live }
  cancelled : t.live.cancelled = s.live.cancelled
  qty : ∀ q, t.qty q = { s.qty q with stale := (t.qty q).stale }

theorem ClearsStale.refl (s : State) : ClearsStale s s := ⟨rfl, rfl, fun _ => rfl⟩

theorem ClearsStale.trans {s t u : State} (h : ClearsStale s t) (k : ClearsStale t u) : ClearsStale s u where
  only := k.only.trans (congrArg (fun x : State =>
    { x with station := u.station, quantities := u.quantities, live := u.live }) h.only)
  cancelled := k.cancelled.trans h.cancelled
  qty := fun q => (k.qty q).trans (congrArg (fun x : QuantityState => { x with stale := (u.qty q).stale }) (h.qty q))

theorem setQty_qty_cases (s : State) (q r : Quantity) (x : QuantityState) :
    (s.setQty q x).qty r = s.qty r ∨ r = q ∧ (s.setQty q x).qty r = x := by
  by_cases h : q = r
  · subst h
    by_cases hl : quantityCode q < s.quantities.length
    · exact .inr ⟨rfl, by simp [State.qty, State.setQty, List.getD, hl]⟩
    · exact .inl (by rw [State.setQty, List.set_eq_of_length_le (Nat.not_lt.mp hl)])
  · exact .inl (qty_setQty_other s h x)

theorem clearStale_clears (q : Quantity) (s : State) : ClearsStale s (clearStale q s) := by
  unfold clearStale
  dsimp only
  split
  · obtain ⟨x, n, e, -⟩ := staleNotice_only q .cleared false (s.setQty q { s.qty q with stale := false })
    have hq : ∀ r, (staleNotice q .cleared false (s.setQty q { s.qty q with stale := false })).qty r =
        (s.setQty q { s.qty q with stale := false }).qty r := fun r => by rw [e]; rfl
    refine ⟨by rw [e]; rfl, by rw [e]; rfl, fun r => ?_⟩
    rw [hq]
    rcases setQty_qty_cases s q r { s.qty q with stale := false } with h | ⟨rfl, h⟩
    · rw [h]
    · rw [h]
  · exact ClearsStale.refl s

theorem foldl_clearStale (l : List Quantity) (s : State) :
    ClearsStale s (l.foldl (fun t q => clearStale q t) s) := by
  induction l generalizing s with
  | nil => exact ClearsStale.refl s
  | cons q rest ih => exact (clearStale_clears q s).trans (ih _)

theorem clearStales_clears (s : State) : ClearsStale s (clearStales s) := by
  unfold clearStales
  exact foldl_clearStale _ s

theorem appliedNotice_speaks (o : SwitchOccasion) (s : State) : Speaks s (appliedNotice o s) := by
  unfold appliedNotice
  exact notice_speaks _ _ s

/-- The banks after a switch (R57). -/
def switchedBanks (b : BankControl) : BankControl :=
  { b with valid := true, generation := b.generation + 1, switchPending := false, modified := false }

/-- A switch applied at a lane reset: what it leaves, and the banks after it (R43, R57, R61). -/
structure Switched (s t : State) : Prop where
  only : t = { s with station := t.station, quantities := t.quantities, live := t.live, working := s.shadow
                      banks := switchedBanks s.banks, rollers := t.rollers, cadA := voidTick s.cadA
                      cadB := voidTick s.cadB }
  cancelled : t.live.cancelled = s.live.cancelled
  still : ∀ sd, (t.roller sd).still = (s.roller sd).still
  emptied : ∀ q, (t.qty q).batch.values = [] ∧ (t.qty q).pendingRaw = none

theorem clearConditioner_only (s : State) : ∃ t, Speaks s t ∧ (∀ q, (t.qty q).batch.values = []) ∧
    clearConditioner s = { t with quantities := t.quantities.map clearQuantity, cadA := voidTick s.cadA
                                  cadB := voidTick s.cadB } := by
  refine ⟨flushBatches s, flushBatches_speaks s, flushBatches_values s, ?_⟩
  unfold clearConditioner
  dsimp only
  rw [(flushBatches_speaks s).only]

/-- The copy of the shadow bank, after the Conditioner was cleared (R43, R57). -/
theorem copyShadow_switched (s : State) : Switched s (copyShadow (clearConditioner s)) := by
  obtain ⟨t, ht, hv, e⟩ := clearConditioner_only s
  have only := ht.only
  have side : ∀ sd, t.roller sd = s.roller sd := fun sd => by rw [only]; rfl
  have cancelled : t.live.cancelled = s.live.cancelled := by rw [ht.counts]
  have qty : ∀ q, (copyShadow (clearConditioner s)).qty q = clearQuantity (t.qty q) := fun q => by
    rw [e]
    exact getD_map_reset rfl t.quantities _
  refine ⟨?_, ?_, fun sd => ?_, fun q => ?_⟩
  · rw [e, only]
    rfl
  · rw [e]
    exact cancelled
  · rw [← side, e]
    cases sd with
    | left => rfl
    | right => rfl
  · rw [qty]
    exact ⟨hv q, rfl⟩

theorem applySwitch_switched (o : SwitchOccasion) (s : State) : Switched s (applySwitch o id s) := by
  unfold applySwitch
  have ha := copyShadow_switched s
  generalize copyShadow (clearConditioner s) = a at ha ⊢
  have hb := clearStales_clears a
  have hc := appliedNotice_speaks o (id (clearStales a))
  rw [id_eq] at hc ⊢
  generalize clearStales a = b at hb hc ⊢
  generalize appliedNotice o b = c at hc ⊢
  have only : c = { a with station := c.station, quantities := c.quantities, live := c.live } := by
    have e1 := hc.only
    have e2 := hb.only
    rw [e1, e2]
  have cancelled : c.live.cancelled = b.live.cancelled := by rw [hc.counts]
  have side : ∀ sd, c.roller sd = a.roller sd := fun sd => by rw [only]; rfl
  refine ⟨?_, cancelled.trans (hb.cancelled.trans ha.cancelled), fun sd => by rw [side, ha.still], fun q => ⟨?_, ?_⟩⟩
  · have e3 := ha.only
    rw [only, e3]
  · refine hc.emptied q ?_
    rw [hb.qty]
    exact (ha.emptied q).1
  · rw [hc.qty, hb.qty]
    exact (ha.emptied q).2

/-! ### The answers (R167, R168) -/

theorem foldl_offer_station_only (l : List Frame) (s : State) :
    ∃ x, l.foldl (fun t f => (offer .station f t).1) s = { s with station := x } := by
  induction l generalizing s with
  | nil => exact ⟨s.station, rfl⟩
  | cons f rest ih =>
    obtain ⟨x, e, -⟩ := offer_station_only f s
    obtain ⟨y, e2⟩ := ih (offer .station f s).1
    refine ⟨y, e2.trans ?_⟩
    rw [e]

/-- A send replaces the station port, and the delivery's registers when it takes place (R167). -/
theorem certSendIfRoom_only (s : State) :
    (certSendIfRoom s) = { s with station := (certSendIfRoom s).station, live := (certSendIfRoom s).live
                                  certs := (certSendIfRoom s).certs } ∧
      (∃ n, (certSendIfRoom s).live = overrunCount s.live .station n) ∧
      (s.certs.queue = [] → (certSendIfRoom s).certs = s.certs) ∧
      ((certSendIfRoom s).certs = s.certs ∨ (certSendIfRoom s).certs = sentCerts s) := by
  cases hq : s.certs.queue with
  | nil =>
    have e : certSendIfRoom s = s := by simp only [certSendIfRoom, hq]
    rw [e]
    exact ⟨rfl, ⟨_, rfl⟩, fun _ => rfl, .inl rfl⟩
  | cons c rest =>
    rw [certSendIfRoom_cons hq]
    split
    · obtain ⟨x, e⟩ := foldl_offer_station_only (segments c) s
      dsimp only
      rw [e, certSentNotice_eq]
      obtain ⟨y, n, e2, -⟩ := notice_only 0x0C (sentFields c s) { s with station := x, certs := sentCerts s }
      exact e2 ▸ ⟨rfl, ⟨n, rfl⟩, fun h => (nomatch h), .inr rfl⟩
    · exact ⟨rfl, ⟨_, rfl⟩, fun _ => rfl, .inl rfl⟩

/-! ### A reset's second half -/

/-- What the sync broadcast of a reset makes of its base; in OFF there is none (R85). -/
structure Broadcast (off : Bool) (s t : State) : Prop where
  only : t = { s with head := t.head, urgent := t.urgent, headPlace := t.headPlace, station := t.station
                      quantities := t.quantities, live := t.live
                      syncLog := if off then s.syncLog else s.logged .streamOff .sequence }
  cancelled : t.live.cancelled = s.live.cancelled
  qty : ∀ q, t.qty q = { s.qty q with batch := (t.qty q).batch }
  emptied : ∀ q, (s.qty q).batch.values = [] → (t.qty q).batch.values = []
  head : s.head.tx ≠ .idle → s.head.queue = [] →
    t.head = { s.head with queue := if off then [] else [originate 63 kindSync [3]] }
  along : Along s t

theorem resetBroadcast (b : Bool) (s : State) :
    Broadcast b s (if b then s else syncBroadcast .streamOff .sequence s) := by
  cases b with
  | true => exact ⟨rfl, rfl, fun _ => rfl, fun _ => id, fun _ hq => by rw [if_pos rfl, if_pos rfl, ← hq], Along.refl s⟩
  | false =>
    rw [if_neg Bool.false_ne_true]
    obtain ⟨x, u, v, l, h, hl, hx⟩ := syncBroadcast_streamOff_only .sequence s
    have along := syncBroadcast_along .streamOff .sequence s
    generalize syncBroadcast .streamOff .sequence s = t at h along ⊢
    refine ⟨?_, ?_, h.qty, h.emptied, fun hb hq => ?_, along⟩
    · have e := h.only
      rw [e]
      rfl
    · rw [h.counts]
      exact hl
    · have e : t.head = x := by rw [h.only]
      rw [e, hx hb (by rw [hq]; decide), hq]
      rfl

/-- What a lane reset's switch does, when one is pending; and nothing when none is (R61). -/
structure SwitchTaken (s t : State) : Prop where
  only : t = { s with station := t.station, quantities := t.quantities, live := t.live, working := t.working
                      banks := t.banks, rollers := t.rollers, cadA := t.cadA, cadB := t.cadB }
  cancelled : t.live.cancelled = s.live.cancelled
  still : ∀ sd, (t.roller sd).still = (s.roller sd).still
  emptied : (∀ q, (s.qty q).batch.values = [] ∧ (s.qty q).pendingRaw = none) →
    ∀ q, (t.qty q).batch.values = [] ∧ (t.qty q).pendingRaw = none
  cad : ∀ c, (s.cad c).running = false → t.cad c = s.cad c
  none : s.banks.switchPending = false → t = s
  pending : s.banks.switchPending = true → t.working = s.shadow ∧ t.banks = switchedBanks s.banks
  along : Along s t

theorem voidTick_stopped {x : CadenceState} (h : x.running = false) : voidTick x = x := by
  simp [voidTick, h]

theorem applyPending_taken (o : SwitchOccasion) (s : State) : SwitchTaken s (applyPending o s) := by
  have along := applyPending_along o s
  cases hp : s.banks.switchPending with
  | false =>
    have e : applyPending o s = s := by simp [applyPending, hp]
    rw [e]
    exact ⟨rfl, rfl, fun _ => rfl, id, fun _ _ => rfl, fun _ => rfl, (fun h => nomatch hp.symm.trans h), Along.refl s⟩
  | true =>
    have e : applyPending o s = applySwitch o id s := by simp [applyPending, hp]
    rw [e] at along ⊢
    have h := applySwitch_switched o s
    generalize applySwitch o id s = t at along h ⊢
    have only := h.only
    refine ⟨?_, h.cancelled, h.still, fun _ => h.emptied, fun c hc => ?_,
      (fun h => nomatch hp.symm.trans h), fun _ => ?_, along⟩
    · rw [only]
    · cases c with
      | a => rw [only]; exact voidTick_stopped hc
      | b => rw [only]; exact voidTick_stopped hc
    · rw [only]
      exact ⟨rfl, rfl⟩

/-- The answers of a reset: the reply, the LANE_STATE notice, and the certificate that is due again (R168). -/
structure Answered (s t : State) : Prop where
  only : t = { s with station := t.station, quantities := t.quantities, live := t.live, certs := t.certs }
  cancelled : t.live.cancelled = s.live.cancelled
  qty : ∀ q, t.qty q = { s.qty q with batch := (t.qty q).batch }
  emptied : ∀ q, (s.qty q).batch.values = [] → (t.qty q).batch.values = []
  noCerts : s.certs.queue = [] → t.certs = s.certs
  certs : t.certs = s.certs ∨ t.certs = sentCerts s
  along : Along s t

theorem resetAnswers (prev : LaneState) (o : LaneOccasion) (src : Nat) (code status : Byte) (l : List Byte)
    (s : State) : Answered s (certSendIfRoom (laneStateNotice prev o (reply src code status l s))) := by
  have h := (reply_speaks src code status l s).trans (laneStateNotice_speaks prev o _)
  have along :=
    ((reply_along src code status l s).trans (laneStateNotice_along prev o _)).trans (certSendIfRoom_along _)
  generalize laneStateNotice prev o (reply src code status l s) = u at h along ⊢
  obtain ⟨only, ⟨n, live⟩, noCerts, certs⟩ := certSendIfRoom_only u
  generalize certSendIfRoom u = t at only live noCerts certs along ⊢
  have eu := h.only
  have qty : ∀ q, t.qty q = u.qty q := fun q => by rw [only]; rfl
  have sameCerts : u.certs = s.certs := by rw [eu]
  have sent : sentCerts u = sentCerts s := by rw [eu]; rfl
  refine ⟨?_, ?_, fun q => ?_, fun q e => ?_, fun e => ?_, ?_, along⟩
  · rw [only, eu]
  · rw [live, h.counts]
    rfl
  · rw [qty, h.qty]
  · rw [qty]
    exact h.emptied q e
  · rw [noCerts (by rw [sameCerts, e]), sameCerts]
  · rw [← sameCerts, ← sent]
    exact certs

/-- The stages of a lane reset: the blocks, the broadcast, the switch, and the answers (R10, R45, R61, R85). -/
structure ResetStages (s c b p t : State) : Prop where
  base : ResetTo s c
  broadcast : Broadcast (s.lane.state == .off) c b
  switch : SwitchTaken b p
  answers : Answered p t

theorem laneReset_stages (src : Nat) (s : State) : ∃ b p, ResetStages s (resetBase s) b p (laneReset src s) :=
  ⟨_, _, resetBase_to s, resetBroadcast _ _, applyPending_taken _ _, laneReset_eq src s ▸ resetAnswers _ _ _ _ _ _ _⟩

section
variable {s c b p t : State}

/-- The broadcast, the switch and the answers leave what the reset made of the lane and its test. -/
theorem ResetStages.same (h : ResetStages s c b p t) : t.lane = c.lane ∧ t.vehicle = c.vehicle ∧ t.engine = c.engine ∧
    t.eval = c.eval ∧ t.plate = c.plate ∧ t.clock = c.clock := by
  rw [h.answers.only, h.switch.only, h.broadcast.only]
  exact ⟨rfl, rfl, rfl, rfl, rfl, rfl⟩

theorem ResetStages.along (h : ResetStages s c b p t) : Along c t :=
  (h.broadcast.along.trans h.switch.along).trans h.answers.along

theorem ResetStages.cancelled (h : ResetStages s c b p t) : t.live.cancelled = c.live.cancelled := by
  rw [h.answers.cancelled, h.switch.cancelled, h.broadcast.cancelled]

theorem ResetStages.cad (h : ResetStages s c b p t) (k : Cadence) :
    t.cad k = { s.cad k with running := false, openTick := none, carryDue := false } := by
  have answered : t.cad k = p.cad k := by rw [h.answers.only]; cases k <;> rfl
  have sent : b.cad k = c.cad k := by rw [h.broadcast.only]; cases k <;> rfl
  rw [answered, h.switch.cad k (by rw [sent, h.base.cad]), sent, h.base.cad]

theorem ResetStages.emptied (h : ResetStages s c b p t) (q : Quantity) :
    (t.qty q).batch.values = [] ∧ (t.qty q).pendingRaw = none := by
  have sent : ∀ q, (b.qty q).batch.values = [] ∧ (b.qty q).pendingRaw = none := fun q =>
    ⟨h.broadcast.emptied q (by rw [h.base.qty]; rfl), by rw [h.broadcast.qty, h.base.qty]⟩
  obtain ⟨values, raw⟩ := h.switch.emptied sent q
  exact ⟨h.answers.emptied q values, by rw [h.answers.qty]; exact raw⟩

theorem ResetStages.side (h : ResetStages s c b p t) (sd : Side) :
    (t.roller sd).still = true ∧ (t.roller sd).contactor = (s.roller sd).contactor ∧
    (t.roller sd).overtemp = (s.roller sd).overtemp ∧ (t.roller sd).history = (s.roller sd).history := by
  have answered : t.roller sd = p.roller sd := by rw [h.answers.only]; rfl
  have sent : b.roller sd = c.roller sd := by rw [h.broadcast.only]; rfl
  obtain ⟨contactor, overtemp⟩ := h.along.flags sd
  refine ⟨?_, contactor.trans (h.base.side sd).contactor, overtemp.trans (h.base.side sd).overtemp,
    (h.along.history sd).trans (h.base.side sd).history⟩
  rw [answered, h.switch.still, sent, (h.base.side sd).still]

theorem if_off_beq {α : Type} (s : State) (x y : α) :
    (if (s.lane.state == .off) = true then x else y) = if s.lane.state = .off then x else y :=
  if_congr beq_iff_eq rfl rfl

theorem ResetStages.head (h : ResetStages s c b p t) (hb : s.head.tx ≠ .idle) :
    t.head = { s.head with queue := if s.lane.state = .off then [] else [originate 63 kindSync [3]] } := by
  have cleared := h.base.ports.head hb
  have same : t.head = b.head := by rw [h.answers.only, h.switch.only]
  rw [same, h.broadcast.head (by rw [cleared]; exact hb) (by rw [cleared]), cleared, if_off_beq]

theorem ResetStages.log (h : ResetStages s c b p t) :
    t.syncLog = if s.lane.state = .off then s.syncLog else s.logged .streamOff .sequence := by
  have same : t.syncLog = b.syncLog := by rw [h.answers.only, h.switch.only]
  rw [same, h.broadcast.only]
  dsimp only
  rw [if_off_beq, State.logged, State.logged, h.base.log, State.now, State.now, h.base.time]

theorem ResetStages.kept (h : ResetStages s c b p t) (hp : s.banks.switchPending = false) :
    t.working = s.working ∧ t.banks = s.banks ∧
    ∀ q, (t.qty q).tare = (s.qty q).tare ∧ (t.qty q).lastConv = (s.qty q).lastConv ∧
      (t.qty q).stale = (s.qty q).stale ∧ (t.qty q).missing = (s.qty q).missing := by
  obtain ⟨banks, working, -⟩ := h.base.banks
  have same : p = b := h.switch.none <| by
    rw [h.broadcast.only]
    exact (congrArg BankControl.switchPending banks).trans hp
  have both : t.working = c.working ∧ t.banks = c.banks := by
    rw [h.answers.only, same, h.broadcast.only]
    exact ⟨rfl, rfl⟩
  refine ⟨both.1.trans working, both.2.trans banks, fun q => ?_⟩
  rw [h.answers.qty, same, h.broadcast.qty, h.base.qty]
  exact ⟨rfl, rfl, rfl, rfl⟩

theorem ResetStages.switched (h : ResetStages s c b p t) (hp : s.banks.switchPending = true) :
    t.working = s.shadow ∧ t.banks = switchedBanks s.banks := by
  obtain ⟨banks, -, shadow⟩ := h.base.banks
  have sent : b.shadow = s.shadow ∧ b.banks = s.banks := by
    rw [h.broadcast.only]
    exact ⟨shadow, banks⟩
  have answered : t.working = p.working ∧ t.banks = p.banks := by
    rw [h.answers.only]
    exact ⟨rfl, rfl⟩
  obtain ⟨working, control⟩ := h.switch.pending (by rw [sent.2]; exact hp)
  exact ⟨by rw [answered.1, working, sent.1], by rw [answered.2, control, sent.2]⟩

/-- The certificates when the answers begin: the oldest is due again (R168). -/
theorem ResetStages.beforeAnswers (h : ResetStages s c b p t) :
    p.certs = { s.certs with due := s.certs.due || !s.certs.queue.isEmpty } ∧
    p.clock.laneTime = s.clock.laneTime := by
  rw [h.switch.only, h.broadcast.only]
  exact ⟨h.base.certs, h.base.time⟩

theorem ResetStages.noCerts (h : ResetStages s c b p t) (hq : s.certs.queue = []) : t.certs = s.certs := by
  have same : (s.certs.due || !s.certs.queue.isEmpty) = s.certs.due := by simp [hq]
  rw [h.answers.noCerts (by rw [h.beforeAnswers.1]; exact hq), h.beforeAnswers.1, same]

theorem ResetStages.certs (h : ResetStages s c b p t) (hq : s.certs.queue ≠ []) :
    t.certs = { s.certs with due := true } ∨ t.certs = sentCerts s := by
  have due : (s.certs.due || !s.certs.queue.isEmpty) = true := by simp [hq]
  obtain ⟨before, time⟩ := h.beforeAnswers
  rw [due] at before
  refine h.answers.certs.imp (·.trans before) fun sent => sent.trans ?_
  rw [sentCerts, before, time]
  rfl

theorem ResetStages.records (h : ResetStages s c b p t) :
    t.certs.queue = s.certs.queue ∧ t.certs.number = s.certs.number := by
  obtain ⟨before, -⟩ := h.beforeAnswers
  rcases h.answers.certs with same | sent
  · rw [same, before]
    exact ⟨rfl, rfl⟩
  · rw [sent, sentCerts, before]
    exact ⟨rfl, rfl⟩

end

/-- What a lane reset leaves, in every state (R10, R24, R45, R61, R85, R168): all but the exact frames. -/
theorem laneReset_leaves (src : Nat) (s : State) :
    let t := laneReset src s
    t.lane = { s.lane with state := .off, remembered := none, causes := PauseCauses.empty, autoTest := .clear,
                           exitWait := false } ∧
    t.vehicle = none ∧ t.engine.pendingGuide = none ∧
    (∀ c, t.cad c = { s.cad c with running := false, openTick := none, carryDue := false }) ∧
    (∀ q, (t.qty q).batch.values = [] ∧ (t.qty q).pendingRaw = none) ∧
    (∀ sd, (t.roller sd).still = true ∧ (t.roller sd).contactor = (s.roller sd).contactor ∧
      (t.roller sd).overtemp = (s.roller sd).overtemp ∧ (t.roller sd).history = (s.roller sd).history) ∧
    t.rollers.estop = s.rollers.estop ∧
    (s.head.tx ≠ .idle → t.head =
      { s.head with queue := if s.lane.state = .off then [] else [originate 63 kindSync [3]] }) ∧
    t.syncLog = (if s.lane.state = .off then s.syncLog else s.logged .streamOff .sequence) ∧
    (s.vehicle = none → t.live.cancelled = s.live.cancelled ∧ t.plate = s.plate ∧ t.clock = s.clock) ∧
    (s.vehicle.isSome = true → t.live.cancelled = s.live.cancelled + 1 ∧ t.engine = EngineState.reset ∧
      t.eval = Evaluator.reset ∧ t.plate = PlateUnit.reset ∧ t.clock = { s.clock with live := 0, hold := 0 }) ∧
    (s.banks.switchPending = false → t.working = s.working ∧ t.banks = s.banks ∧
      ∀ q, (t.qty q).tare = (s.qty q).tare ∧ (t.qty q).lastConv = (s.qty q).lastConv ∧
        (t.qty q).stale = (s.qty q).stale ∧ (t.qty q).missing = (s.qty q).missing) ∧
    (s.banks.switchPending = true → t.working = s.shadow ∧ t.banks = switchedBanks s.banks) ∧
    t.shadow = s.shadow ∧ t.certs.queue = s.certs.queue ∧ t.certs.number = s.certs.number ∧
    t.latched = s.latched ∧ t.latchTime = s.latchTime ∧ t.head.fifo = s.head.fifo ∧
    t.station.fifo = s.station.fifo ∧
    (s.certs.queue = [] → t.certs = s.certs) ∧
    (s.certs.queue ≠ [] → t.certs = { s.certs with due := true } ∨ t.certs = sentCerts s) := by
  intro t
  obtain ⟨b, p, stages⟩ := laneReset_stages src s
  have h : ResetStages s (resetBase s) b p t := stages
  obtain ⟨lane, vehicle, engine, eval, plate, clock⟩ := h.same
  have along := h.along
  have base := h.base
  obtain ⟨-, -, shadow⟩ := base.banks
  obtain ⟨latched, latchTime⟩ := base.latched
  obtain ⟨queue, number⟩ := h.records
  refine ⟨lane.trans base.lane, vehicle.trans base.vehicle, (congrArg _ engine).trans base.guide, h.cad,
    h.emptied, h.side, along.estop.trans base.estop, h.head, h.log, fun hv => ?_, fun hv => ?_, h.kept, h.switched,
    along.shadow.trans shadow, queue, number, along.latched.1.trans latched, along.latched.2.trans latchTime,
    along.head.fifo.trans base.ports.headFifo, along.station.fifo.trans base.ports.stationFifo, h.noCerts, h.certs⟩
  · obtain ⟨count, samePlate, sameClock⟩ := base.kept hv
    exact ⟨h.cancelled.trans count, plate.trans samePlate, clock.trans sameClock⟩
  · obtain ⟨count, noTest, noEval, noPlate, newClock⟩ := base.discarded hv
    exact ⟨h.cancelled.trans count, engine.trans noTest, eval.trans noEval, plate.trans noPlate, clock.trans newClock⟩

end Sys2Proof.Machine
end

section
/-! LANE_RESET, concluded: the frames that a busy station port is left with (R61, R85, R168). -/

namespace Sys2Proof.Machine

theorem notice_busy_room {s : State} (code : Byte) (l : List Byte) (h : s.station.tx ≠ .idle)
    (hl : s.station.queue.length < 32) : (notice code l s).station =
      { s.station with queue := s.station.queue ++ [originate 62 kindNotice (code :: l)] } := by
  rw [notice_busy code l h, if_pos hl]

theorem reply_busy_room {s : State} (src : Nat) (code status : Byte) (l : List Byte) (h : s.station.tx ≠ .idle)
    (hl : s.station.queue.length < 32) : (reply src code status l s).station =
      { s.station with queue := s.station.queue ++ [originate src kindMreply (code :: status :: l)] } := by
  rw [reply_busy src code status l h, if_pos hl]

/-- The content of the SYNC notice of a reset's STREAM_OFF. -/
def streamOffFields (time : Word32) (logged : Bool) (log : SyncLog) : List Byte :=
  word32 time ++ [3, 1, if logged then 1 else 0, BitVec.ofNat 8 log.entries.length,
    if 16 < log.entries.length then 1 else 0]

/-- The content of the LANE_STATE notice of a reset from a lane state. -/
def resetFields (time : Word32) (prev : LaneState) : List Byte :=
  word32 time ++ [0, BitVec.ofNat 8 (laneCode prev), 16, 0, 0, 0]

theorem syncNotice_streamOff (logged : Bool) (s : State) : syncNotice .streamOff .sequence logged s =
    notice 0x0B (streamOffFields s.clock.laneTime logged s.syncLog) s := by
  unfold syncNotice streamOffFields
  simp only [flagByte, be8, halfFlag, decide_eq_true_eq, List.append_assoc]
  rfl

theorem syncBroadcast_streamOff_station {s : State} (h : s.station.tx ≠ .idle) (hl : s.station.queue.length < 32) :
    (syncBroadcast .streamOff .sequence s).station = { s.station with queue := s.station.queue ++
      [originate 62 kindNotice (0x0B :: streamOffFields s.clock.laneTime (decide (s.syncLog.entries.length < 32))
        (s.logged .streamOff .sequence))] } := by
  obtain ⟨x, u, v, l, e, -⟩ := offerCounted_head_room (originate 63 kindSync [3])
    { s with syncLog := s.logged .streamOff .sequence }
  unfold syncBroadcast
  rw [issueSync_streamOff, syncNotice_streamOff, e]
  exact notice_busy_room (s := { s with
    head := x, urgent := u, headPlace := v, live := l, syncLog := s.logged .streamOff .sequence }) _ _ h hl

theorem laneStateNotice_reset {prev : LaneState} {s : State} (hs : s.lane.state = .off)
    (hc : s.lane.causes = PauseCauses.empty) (hv : s.vehicle = none) :
    laneStateNotice prev .laneReset s = notice 0x01 (resetFields s.clock.laneTime prev) s := by
  unfold laneStateNotice resetFields
  rw [hs, hc, hv]
  simp only [List.append_assoc]
  rfl

/-- The queue of a busy station port after the answers of a reset (R85, R167, R168). -/
theorem resetAnswers_queue {prev : LaneState} {src : Nat} {s : State} (h : s.station.tx ≠ .idle)
    (hl : s.station.queue.length ≤ 1) (hs : s.lane.state = .off) (hc : s.lane.causes = PauseCauses.empty)
    (hv : s.vehicle = none) :
    let t := certSendIfRoom (laneStateNotice prev .laneReset (reply src 0x08 statusDone [] s))
    let own := s.station.queue ++ [originate src kindMreply [0x08, 0],
      originate 62 kindNotice (0x01 :: resetFields s.clock.laneTime prev)]
    (s.certs.queue = [] → t.station.queue = own) ∧
      ∀ c rest, s.certs.queue = c :: rest → s.certs.due = true → t.certs = sentCerts s ∧
        t.station.queue = own ++ segments c ++ [originate 62 kindNotice (0x0C :: sentFields c s)] := by
  have hr := reply_busy_room src 0x08 statusDone [] h (by omega)
  have er := (reply_speaks src 0x08 statusDone [] s).only
  generalize reply src 0x08 statusDone [] s = r at hr er ⊢
  have el : laneStateNotice prev .laneReset r = notice 0x01 (resetFields r.clock.laneTime prev) r :=
    laneStateNotice_reset (by rw [er]; exact hs) (by rw [er]; exact hc) (by rw [er]; exact hv)
  rw [el]
  have hn := notice_busy_room (s := r) 0x01 (resetFields r.clock.laneTime prev) (by rw [hr]; exact h)
    (by rw [hr, List.length_append, List.length_singleton]; omega)
  have en := (notice_speaks 0x01 (resetFields r.clock.laneTime prev) r).only
  generalize notice 0x01 (resetFields r.clock.laneTime prev) r = n at hn en ⊢
  have time : r.clock.laneTime = s.clock.laneTime := by rw [er]
  have certs : n.certs = s.certs := by rw [en, er]
  have clock : n.clock = s.clock := by rw [en, er]
  have queue : n.station.queue = s.station.queue ++ [originate src kindMreply [0x08, 0],
      originate 62 kindNotice (0x01 :: resetFields s.clock.laneTime prev)] := by
    rw [hn, hr, time, List.append_assoc]
    rfl
  dsimp only
  rw [← queue]
  refine ⟨fun hq => ?_, fun c rest hq hd => ?_⟩
  · rw [show certSendIfRoom n = n by simp only [certSendIfRoom, certs, hq]]
  · have h4 := segments_length c
    have len : n.station.queue.length ≤ 3 := by
      rw [queue, List.length_append]
      exact Nat.add_le_add_right hl 2
    have busy : n.station.tx ≠ .idle := by rw [hn, hr]; exact h
    have sent : sentCerts n = sentCerts s := by rw [sentCerts, sentCerts, certs, clock]
    have fields : sentFields c n = sentFields c s := by rw [sentFields, sentFields, certs, clock]
    rw [certSendIfRoom_busy (by rw [certs]; exact hq) (by rw [certs]; exact hd) busy (by omega), sent, fields]
    have queued : (n.station.queue ++ segments c).length < 32 := by
      rw [List.length_append]
      omega
    generalize hm : ({ n with station := { n.station with queue := n.station.queue ++ segments c },
                              certs := sentCerts s } : State) = m
    have hms : m.station = { n.station with queue := n.station.queue ++ segments c } := by rw [← hm]
    have hmc : m.certs = sentCerts s := by rw [← hm]
    rw [notice_busy_room 0x0C (sentFields c s) (by rw [hms]; exact busy) (by rw [hms]; exact queued), hms,
      (notice_speaks 0x0C (sentFields c s) m).only]
    exact ⟨hmc, rfl⟩

/-- The station port after the sync broadcast of a reset, when it is busy and no side was held (R85). -/
theorem resetBroadcast_station {s c : State} (base : ResetTo s c) (h : s.station.tx ≠ .idle)
    (hn : ∀ sd, (s.roller sd).state ≠ .held) :
    (if s.lane.state == .off then c else syncBroadcast .streamOff .sequence c).station =
      { s.station with queue := if s.lane.state = .off then [] else
          [originate 62 kindNotice (0x0B :: streamOffFields s.clock.laneTime (decide (s.syncLog.entries.length < 32))
            (s.logged .streamOff .sequence))] } := by
  have hc := base.ports.station hn
  by_cases ho : s.lane.state = .off
  · rw [if_pos ho, if_pos (beq_iff_eq.mpr ho), hc]
  · have logged : c.logged .streamOff .sequence = s.logged .streamOff .sequence := by
      rw [State.logged, State.logged, base.log, State.now, State.now, base.time]
    rw [if_neg ho, if_neg (fun e => ho (beq_iff_eq.mp e)),
      syncBroadcast_streamOff_station (by rw [hc]; exact h) (by rw [hc]; exact Nat.zero_lt_succ 31), hc, logged, base.log,
      base.time]
    rfl

/-- The frames that a reset leaves at a busy station port, with no side held and no switch pending (R85, R168). -/
theorem laneReset_queue {src : Nat} {s : State} (h : s.station.tx ≠ .idle)
    (hn : ∀ sd, (s.roller sd).state ≠ .held) (hp : s.banks.switchPending = false) :
    let t := laneReset src s
    let own := (if s.lane.state = .off then [] else
        [originate 62 kindNotice (0x0B :: streamOffFields s.clock.laneTime (decide (s.syncLog.entries.length < 32))
          (s.logged .streamOff .sequence))]) ++
      [originate src kindMreply [0x08, 0],
        originate 62 kindNotice (0x01 :: resetFields s.clock.laneTime s.lane.state)]
    (s.certs.queue = [] → t.station.queue = own) ∧
      ∀ c rest, s.certs.queue = c :: rest → t.certs = sentCerts s ∧
        t.station.queue = own ++ segments c ++ [originate 62 kindNotice (0x0C :: sentFields c s)] := by
  have base := resetBase_to s
  have broadcast := resetBroadcast (s.lane.state == .off) (resetBase s)
  have station := resetBroadcast_station base h hn
  rw [laneReset_eq]
  generalize (if (s.lane.state == .off) = true then resetBase s
    else syncBroadcast .streamOff .sequence (resetBase s)) = b at broadcast station ⊢
  generalize resetBase s = c at base broadcast
  have eb := broadcast.only
  have banks : b.banks = s.banks := by rw [eb]; exact base.banks.1
  have same : applyPending .laneReset b = b := (applyPending_taken .laneReset b).none (by rw [banks, hp])
  have lane : b.lane = _ := (show b.lane = c.lane by rw [eb]).trans base.lane
  have vehicle : b.vehicle = none := by rw [eb]; exact base.vehicle
  have certs : b.certs = { s.certs with due := s.certs.due || !s.certs.queue.isEmpty } := by rw [eb]; exact base.certs
  have time : b.clock.laneTime = s.clock.laneTime := by rw [eb]; exact base.time
  have room : b.station.queue.length ≤ 1 := by
    rw [station]
    dsimp only
    split
    · exact Nat.zero_le 1
    · exact Nat.le_refl 1
  rw [same]
  obtain ⟨h1, h2⟩ := resetAnswers_queue (prev := s.lane.state) (src := src) (s := b) (by rw [station]; exact h) room
    (by rw [lane]) (by rw [lane]) vehicle
  rw [station, time] at h1 h2
  have sent : sentCerts b = sentCerts s := by rw [sentCerts, sentCerts, certs, time]
  refine ⟨fun hq => h1 (by rw [certs]; exact hq), fun c rest hq => ?_⟩
  have fields : sentFields c b = sentFields c s := by rw [sentFields, sentFields, certs, time]
  rw [← sent, ← fields]
  exact h2 c rest (by rw [certs]; exact hq) (by rw [certs]; simp [hq])

/-- Settles O32: the three stages of a reset, and the frames it leaves. -/
theorem laneResetLeaves : Obligations.LaneResetLeaves := by
  unfold Obligations.LaneResetLeaves
  intro f s hf
  have exec := exec_laneReset hf
  have same := laneReset_station f.src.toNat (s.dropFirst .station) []
  have hf' : State.asks { s with station := { s.station with queue := [] } } f [0x08] := hf
  refine ⟨?_, laneReset f.src.toNat (s.dropFirst .station), exec, ?_⟩
  · rw [exec, exec_laneReset hf']
    exact congrArg Host.Outcome.next same.symm
  · obtain ⟨lane, vehicle, guide, cad, qty, side, estop, head, log, kept, discarded, noSwitch, switched, shadow, queue,
      number, latched, latchTime, headFifo, stationFifo, noCerts, certs⟩ :=
      laneReset_leaves f.src.toNat (s.dropFirst .station)
    refine ⟨lane, vehicle, guide, cad, qty, side, estop, head, log, kept, discarded, noSwitch, switched, shadow, queue,
      number, latched, latchTime, headFifo, stationFifo, noCerts, certs, fun hb hn hp => ?_⟩
    obtain ⟨own, sent⟩ := laneReset_queue (src := f.src.toNat) (s := s.dropFirst .station) hb hn hp
    have sync : (if s.lane.state = .off then [] else [originate 62 kindNotice (0x0B :: streamOffFields s.clock.laneTime
        (decide (s.syncLog.entries.length < 32)) (s.logged .streamOff .sequence))]) =
        if s.lane.state = .off then [] else [originate 62 0x09 (0x0B :: (word32 s.clock.laneTime ++
          [3, 1, if s.syncLog.entries.length < 32 then 1 else 0,
            BitVec.ofNat 8 (laneReset f.src.toNat (s.dropFirst .station)).syncLog.entries.length,
            if 16 < (laneReset f.src.toNat (s.dropFirst .station)).syncLog.entries.length then 1 else 0]))] := by
      rw [log]
      by_cases ho : s.lane.state = .off
      · rw [if_pos ho, if_pos ho]
      · rw [if_neg ho, if_neg ho, if_neg (show ¬ (s.dropFirst .station).lane.state = .off from ho), streamOffFields]
        simp only [decide_eq_true_eq]
        rfl
    dsimp only
    rw [← sync]
    exact ⟨own, sent⟩

end Sys2Proof.Machine
end

section
/-! The begin of the plan and of its steps (R71, R86, R88, R90, R91). -/

namespace Sys2Proof.Machine

/-! ### Begins (R88) -/

/-- The Step Engine of a step begun by an occasion (R88). -/
def EngineState.begun (e : EngineState) (o : BeginOccasion) : EngineState :=
  { e with
    phase := .running, waitOccasion := o, waitTaken := false
    attempt := if e.waitTaken then e.attempt else nextAttempt o e.attempt
    elapsed := 0, presence := 0, barPhase := 0, marks := { left := .clear, right := .clear } }

/-- A step begun, with its notice and guidance, before its begin actions (R88). -/
def announced (p : PlanStep) (o : BeginOccasion) (s : State) : State :=
  guideStep (stepBeginNotice p.kind o { s with engine := s.engine.begun o })

/-- No cause is recorded at the begin (R88 item 2). -/
theorem causesAtBegin_same {s : State}
    (hs : (settings s).headStaleEnable = true → s.lane.causes.headStale = true ∨ neededStale s = false)
    (hd : (settings s).driveFaultEnable = true → s.lane.causes.driveFault = true ∨ anyOvertemp s = false) :
    causesAtBegin s = s.lane.causes := by
  have recorded : ∀ c e n : Bool, (e = true → c = true ∨ n = false) → (c || (e && n)) = c := by decide
  unfold causesAtBegin
  dsimp only
  rw [recorded _ _ _ hs, recorded _ _ _ hd]

theorem beginStep_eq {o : BeginOccasion} {p : PlanStep} {s : State} (hp : currentStep s = some p)
    (hs : (settings s).headStaleEnable = true → s.lane.causes.headStale = true ∨ neededStale s = false)
    (hd : (settings s).driveFaultEnable = true → s.lane.causes.driveFault = true ∨ anyOvertemp s = false) :
    beginStep o s = beginActions p (announced p o s) := by
  have same := causesAtBegin_same (s := s.setEngine fun e => { e with
    phase := .waiting, waitOccasion := o, waitTaken := true,
    attempt := if e.waitTaken then e.attempt else nextAttempt o e.attempt }) hs hd
  unfold beginStep
  rw [hp]
  dsimp only
  rw [same, if_neg (fun h => h rfl)]
  rfl

/-- What the notice and the guidance of a begin replace. -/
theorem announced_only (p : PlanStep) (o : BeginOccasion) (s : State) :
    ∃ x u v y n m, announced p o s = { s with
      head := x, urgent := u, headPlace := v, station := y, live := overrunCount s.live .station n
      engine := { s.engine.begun o with pendingGuide := m } } := by
  obtain ⟨y, n, e, -⟩ := notice_only 0x02
    (word32 s.now ++ be8 (s.engine.plan.getD 0) ++ be8 (s.engine.step.getD 0) ++ be8 (stepKindCode p.kind)
      ++ be8 s.engine.axle ++ be8 (s.engine.begun o).attempt ++ be8 (beginCode o))
    { s with engine := s.engine.begun o }
  have e' : stepBeginNotice p.kind o { s with engine := s.engine.begun o } = _ := e
  unfold announced guideStep
  rw [e']
  split
  · exact ⟨s.head, s.urgent, s.headPlace, y, n, s.engine.pendingGuide, rfl⟩
  · next q _ =>
    obtain ⟨x, u, v, m, e2, -⟩ := offerGuide_only (stepGuide q _) { s with
      station := y, live := overrunCount s.live .station n, engine := s.engine.begun o }
    exact ⟨x, u, v, y, n, m, e2⟩

theorem startStep_none {o : BeginOccasion} {s : State} (h : (beginStep o s).2 = none) :
    startStep o s = (beginStep o s).1 := by
  rw [startStep, show engineFuel = 2047 + 1 from rfl]
  simp only [runEngine, h]

/-- A step that ends at its begin, with no other begun in the event. -/
theorem startStep_ends {o : BeginOccasion} {x : StepEnd} {s : State} (h : (beginStep o s).2 = some x)
    (he : (endStep x (beginStep o s).1).2 = none) : startStep o s = (endStep x (beginStep o s).1).1 := by
  rw [startStep, show engineFuel = 2046 + 1 + 1 from rfl]
  simp only [runEngine, h, he]

/-! ### The first step of a plan (R71, R86) -/

theorem axleSection_first {b : Bank} {plan : Nat} {p : PlanStep} (h : (axleSection b plan).head? = some p) :
    (planSteps b plan)[0]? = some p := by
  rw [axleSection, List.head?_takeWhile, Option.filter_eq_some_iff] at h
  rw [← List.head?_eq_getElem?]
  exact h.1

theorem findStep_first {sec : List PlanStep} {park : List Nat} {p : PlanStep} (h : sec.head? = some p)
    (hr : runnable park 1 p = true) (n : Nat) : findStep sec park n 1 0 = (1, 0) := by
  obtain ⟨rest, rfl⟩ := List.head?_eq_some_iff.mp h
  have first : firstRunnable (p :: rest) park 1 0 = some 0 := by
    simp [firstRunnable, List.range_succ_eq_map, hr]
  rw [findStep, first]

theorem goDone_speaks (src : Nat) (s : State) : Speaks s (goDone src s) := by
  unfold goDone
  exact reply_speaks _ _ _ _ s

theorem exec_goTest {s : State} {f : Frame} (h : s.asks f [0x05, 0x05]) :
    exec .goTest s = .next (goTest f.src.toNat (s.dropFirst .station)) :=
  congrArg Host.Outcome.next (onSelected_asks h isGo (oneByte 0x05 0x05 goTest))

/-- The Step Engine with the first step of a plan made current (R86). -/
def EngineState.planned (e : EngineState) (plan : Nat) : EngineState :=
  { e with plan := some plan, axle := 1, step := some 0, phase := .waiting, waitOccasion := .advance, waitTaken := false
           marks := { left := .clear, right := .clear } }

/-- The passage to TESTING makes the first step of the plan current, and begins it (R71, R86). -/
theorem startTest_first {o : LaneOccasion} {answer : State → State} {p : PlanStep} {v : VehicleRecord} {s : State}
    (h : ∀ s, Speaks s (answer s)) (hv : s.vehicle = some v)
    (hp : (axleSection s.working (limits s).plan).head? = some p) (hr : runnable v.park 1 p = true) :
    ∃ t, Speaks (s.setLane fun l => { l with autoTest := .clear, state := .testing }) t ∧
      (∀ q, (t.qty q).batch.values = []) ∧
      startTest o answer s = startStep .advance { t with engine := s.engine.planned (limits s).plan } := by
  have speaks := enterLane_speaks h .testing o (s.setLane fun l => { l with autoTest := .clear })
  have values := enterLane_values answer .testing o (s.setLane fun l => { l with autoTest := .clear })
  unfold startTest
  generalize enterLane .testing o answer (s.setLane fun l => { l with autoTest := .clear }) = t at speaks values ⊢
  have et := speaks.only
  have engine : t.engine = s.engine := by rw [et]; rfl
  have working : t.working = s.working := by rw [et]; rfl
  have vehicle : t.vehicle = some v := by rw [et]; exact hv
  have lim : limits t = limits s := by rw [et]; rfl
  have found : findStep (axleSection t.working (limits t).plan) (t.vehicle.elim [] (·.park))
      (t.vehicle.elim 0 (·.n)) 1 0 = (1, 0) := by
    rw [lim, working, vehicle]
    exact findStep_first hp hr _
  refine ⟨t, speaks, values, ?_⟩
  dsimp only
  rw [found, lim]
  unfold makeCurrent State.setEngine
  dsimp only
  rw [engine]
  rfl

/-- Settling begins, or a detection step waits for its sensors: no more than the Evaluator changes, and the step goes
on (R90, R91, R126). -/
theorem beginActions_waits {p : PlanStep} (hk : p.kind = .axleIn ∨ p.kind = .axleOut ∨ p.kind = .weigh) (s : State) :
    beginActions p s = ({ s with eval :=
      if p.kind = .weigh then { Evaluator.reset with activity := .settling } else s.eval }, none) := by
  unfold beginActions
  rcases hk with hk | hk | hk
  · rw [hk]
    rfl
  · rw [hk]
    rfl
  · rw [hk]
    rfl

/-- GO_TEST with a first step that waits (R71, R86, R88). -/
theorem goTest_first {src : Nat} {p : PlanStep} {v : VehicleRecord} {s : State} (hs : s.lane.state = .entry)
    (hexit : s.lane.exitWait = false) (hv : s.vehicle = some v)
    (hp : (axleSection s.working (limits s).plan).head? = some p)
    (hk : p.kind = .axleIn ∨ p.kind = .axleOut ∨ p.kind = .weigh) (hr : runnable v.park 1 p = true)
    (hn : ∀ q ∈ neededBy p.kind, (mapped s q).isSome = true → (s.qty q).stale = false) (hd : anyOvertemp s = false) :
    ∃ t x u w y n m, Speaks (s.setLane fun l => { l with autoTest := .clear, state := .testing }) t ∧
      (∀ q, (t.qty q).batch.values = []) ∧
      goTest src s = { t with
        head := x, urgent := u, headPlace := w, station := y, live := overrunCount t.live .station n
        engine := { (s.engine.planned (limits s).plan).begun .advance with pendingGuide := m }
        eval := if p.kind = .weigh then { Evaluator.reset with activity := .settling } else s.eval } := by
  obtain ⟨t, speaks, values, e⟩ := startTest_first (o := .go .test) (answer := goDone src) (goDone_speaks src) hv hp hr
  have et := speaks.only
  have hgo : goTest src s = startTest (.go .test) (goDone src) s := by simp [goTest, hs, hexit]
  generalize hu : ({ t with engine := s.engine.planned (limits s).plan } : State) = u at e
  have current : currentStep u = some p := by
    have h1 : u.engine = s.engine.planned (limits s).plan := by rw [← hu]
    have h2 : u.working = s.working := by rw [← hu, et]; rfl
    rw [currentStep, h1, h2]
    exact axleSection_first hp
  have qty : ∀ q, (u.qty q).stale = (s.qty q).stale := fun q => by
    have h1 : u.qty q = t.qty q := by rw [← hu]; rfl
    rw [h1, speaks.qty]
    rfl
  have map : ∀ q, mapped u q = mapped s q := fun q => by rw [← hu, et]; rfl
  have fresh : neededStale u = false := by
    refine (Bool.not_eq_true _).mp fun stale => ?_
    obtain ⟨k, hkind, q, hq, hm, hst⟩ := (neededStale_iff u).mp stale
    have kind : currentKind u = some p.kind := by rw [currentKind, current]; rfl
    obtain rfl : k = p.kind := Option.some.inj (hkind.symm.trans kind)
    rw [qty] at hst
    rw [map] at hm
    exact Bool.false_ne_true ((hn q hq hm).symm.trans hst)
  have cool : anyOvertemp u = false := by rw [← hu, et]; exact hd
  have begun := beginStep_eq (o := .advance) current (fun _ => .inr fresh) (fun _ => .inr cool)
  rw [beginActions_waits hk] at begun
  obtain ⟨x, ur, w, y, n, m, ea⟩ := announced_only p .advance u
  refine ⟨t, x, ur, w, y, n, m, speaks, values, ?_⟩
  rw [hgo, e, startStep_none (by rw [begun]), begun, ea, ← hu]
  have eval : t.eval = s.eval := by rw [et]; rfl
  rw [← eval]

/-- The first part of O26: GO_TEST begins the plan. -/
theorem exec_goTest_begins (f : Frame) (p : PlanStep) (v : VehicleRecord) (s : State) (hf : s.asks f [0x05, 0x05])
    (hs : s.lane.state = .entry) (hexit : s.lane.exitWait = false) (hv : s.vehicle = some v)
    (hp : (axleSection s.working (limits s).plan).head? = some p)
    (hk : p.kind = .axleIn ∨ p.kind = .axleOut ∨ p.kind = .weigh) (hr : runnable v.park 1 p = true)
    (hn : ∀ q ∈ neededBy p.kind, (mapped s q).isSome = true → (s.qty q).stale = false) (hd : anyOvertemp s = false) :
    ∃ t, exec .goTest s = .next t ∧ t.lane = { s.lane with state := .testing, autoTest := .clear } ∧
      t.engine = { plan := some (limits s).plan, step := some 0, axle := 1, phase := .running, attempt := 1,
                   elapsed := 0, presence := 0, barPhase := 0, marks := { left := .clear, right := .clear },
                   pendingGuide := t.engine.pendingGuide, waitOccasion := .advance, waitTaken := false } ∧
      t.eval = (if p.kind = .weigh then { Evaluator.reset with activity := .settling } else s.eval) ∧
      (∀ q, (t.qty q).batch.values = [] ∧ t.qty q = { s.qty q with batch := (t.qty q).batch }) ∧
      t = { s with head := t.head, urgent := t.urgent, headPlace := t.headPlace, station := t.station,
                   lane := t.lane, quantities := t.quantities, engine := t.engine, eval := t.eval,
                   live := t.live } := by
  obtain ⟨t, x, u, w, y, n, m, speaks, values, e⟩ :=
    goTest_first (src := f.src.toNat) (s := s.dropFirst .station) hs hexit hv hp hk hr hn hd
  have et := speaks.only
  have lane : t.lane = { s.lane with state := .testing, autoTest := .clear } := by rw [et]; rfl
  refine ⟨_, exec_goTest hf, ?_⟩
  rw [e]
  refine ⟨lane, rfl, rfl, fun q => ⟨values q, speaks.qty q⟩, ?_⟩
  rw [et]
  rfl

end Sys2Proof.Machine
end

section
/-! The begin actions of SPIN (R92, R93, R108, R109). -/

namespace Sys2Proof.Machine

/-- The mark that SPIN's begin gives a side in each roller state (R92). -/
def markFor : RollerState → SideMark
  | .stopped | .held | .spinningUp => .requested
  | .running => .up
  | .coasting => .waitingStandstill

/-- A START of the sequence for the side is refused (R108). -/
def barred (s : State) (sd : Side) : Bool := s.rollers.estop || (s.roller sd).overtemp

/-- SPIN's begin offers a START for the side (R92, R108, R109). -/
def offersStart (s : State) (sd : Side) : Bool :=
  decide ((s.roller sd).state = .stopped) && !barred s sd && permitted s sd

/-- SPIN's begin for one side: what it replaces, and in which case what becomes of the side, of the head port and of
the request. -/
structure SpinBegun (sd : Side) (s t : State) (l : List Report) : Prop where
  only : t = { s with
    head := t.head, urgent := t.urgent, headPlace := t.headPlace, station := t.station, live := t.live
    engine := { s.engine with marks := s.engine.marks.set sd (markFor (s.roller sd).state) }
    rollers := { s.rollers with sides := s.rollers.sides.set sd (t.roller sd) } }
  moving : (s.roller sd).state ≠ .stopped → t.roller sd = s.roller sd ∧ t.head = s.head ∧ l = []
  barred : (s.roller sd).state = .stopped → barred s sd = true →
    t.roller sd = s.roller sd ∧ t.head = s.head ∧ l = [.refused sd]
  held : (s.roller sd).state = .stopped → Machine.barred s sd = false → permitted s sd = false →
    t.roller sd = { s.roller sd with
      state := .held, held := some { origin := .sequence, since := s.clock.laneTime }, testDue := false } ∧
    t.head = s.head ∧ l = []
  sent : offersStart s sd = true → s.head.tx ≠ .idle → s.head.queue.length < 16 →
    t.roller sd = (s.roller sd).started ∧
    t.head = { s.head with queue := s.head.queue ++ [startFrame ((cabinetNode s).getD 0) sd] } ∧ l = []
  full : offersStart s sd = true → s.head.tx ≠ .idle → 16 ≤ s.head.queue.length →
    t.roller sd = { s.roller sd with held := none, testDue := false, outstanding := false, sendTime := none } ∧
    t.head = s.head ∧ l = [.refused sd]

theorem refusal_stopped {s : State} {sd : Side} (h : (s.roller sd).state = .stopped) :
    refusal .sequence sd s = if s.rollers.estop then some .estop
      else if (s.roller sd).overtemp then some .overtemperature else none := by
  rw [refusal_sequence, h]
  rfl

theorem offersStart_iff {s : State} {sd : Side} : offersStart s sd = true ↔
    (s.roller sd).state = .stopped ∧ barred s sd = false ∧ permitted s sd = true := by
  simp only [offersStart, Bool.and_eq_true, decide_eq_true_eq, Bool.not_eq_true', and_assoc]

/-- A START of the sequence that is offered replaces the head port and the side. -/
theorem offerStart_only (sd : Side) (s : State) :
    ∃ x u v r l, offerStart .sequence sd s = ({ s.setRoller sd r with head := x, urgent := u, headPlace := v }, l) := by
  obtain ⟨x, u, v, e, -⟩ := offer_head_only (startFrame ((cabinetNode s).getD 0) sd)
    (s.setRoller sd (s.roller sd).started)
  rw [offerStart_eq]
  dsimp only
  rw [e]
  split
  · exact ⟨x, u, v, _, _, rfl⟩
  · refine ⟨x, u, v, (s.roller sd).started.unstarted, [.refused sd], ?_⟩
    cases sd <;> rfl

theorem spinSide_stopped {s : State} {sd : Side} (h : (s.roller sd).state = .stopped) :
    spinSide sd s = judgeStart .sequence sd (setMark sd .requested s) := by
  simp only [spinSide, h]

/-- A side that turns already is marked as it is; no START is requested (R92). -/
theorem spinSide_moving {s : State} {sd : Side} (h : (s.roller sd).state ≠ .stopped) :
    spinSide sd s = (setMark sd (markFor (s.roller sd).state) s, []) := by
  unfold spinSide
  cases hs : (s.roller sd).state with
  | stopped => exact absurd hs h
  | held | spinningUp | running | coasting => rfl

theorem spinSide_begun (sd : Side) (s : State) : SpinBegun sd s (spinSide sd s).1 (spinSide sd s).2 := by
  by_cases hs : (s.roller sd).state = .stopped
  · have href : refusal .sequence sd (setMark sd .requested s) = _ := refusal_stopped (s := s) hs
    rw [spinSide_stopped hs]
    cases hb : barred s sd with
    | true =>
      obtain ⟨why, hw⟩ : ∃ why, refusal .sequence sd (setMark sd .requested s) = some why := by
        rw [href]
        rcases Bool.or_eq_true_iff.mp hb with h | h
        · exact ⟨_, if_pos h⟩
        · by_cases he : s.rollers.estop = true
          · exact ⟨_, if_pos he⟩
          · exact ⟨_, (if_neg he).trans (if_pos h)⟩
      rw [judgeStart_refused hw, if_neg (by decide)]
      exact {
        only := by rw [hs]; cases sd <;> rfl
        moving := fun h => absurd hs h
        barred := fun _ _ => ⟨rfl, rfl, rfl⟩
        held := fun _ h => nomatch hb.symm.trans h
        sent := fun h => nomatch hb.symm.trans (offersStart_iff.mp h).2.1
        full := fun h => nomatch hb.symm.trans (offersStart_iff.mp h).2.1 }
    | false =>
      obtain ⟨he, ho⟩ := Bool.or_eq_false_iff.mp hb
      have hn : refusal .sequence sd (setMark sd .requested s) = none := by
        rw [href, he, ho]
        rfl
      cases hp : permitted s sd with
      | false =>
        rw [judgeStart_held hn hp]
        obtain ⟨y, n, e, -⟩ := policyNotice_only sd .sequence .held (some .startRules)
          ((setMark sd .requested s).setRoller sd { (setMark sd .requested s).roller sd with
            state := .held, held := some { origin := .sequence, since := (setMark sd .requested s).now }
            testDue := false })
        rw [e]
        exact {
          only := by rw [hs]; cases sd <;> rfl
          moving := fun h => absurd hs h
          barred := fun _ h => nomatch hb.symm.trans h
          held := fun _ _ _ => ⟨roller_setRoller _ _ _, rfl, rfl⟩
          sent := fun h => nomatch hp.symm.trans (offersStart_iff.mp h).2.2
          full := fun h => nomatch hp.symm.trans (offersStart_iff.mp h).2.2 }
      | true =>
        rw [judgeStart_permitted hn hp]
        exact {
          only := by
            obtain ⟨x, u, v, r, l, e⟩ := offerStart_only sd (setMark sd .requested s)
            rw [e, hs]
            cases sd <;> rfl
          moving := fun h => absurd hs h
          barred := fun _ h => nomatch hb.symm.trans h
          held := fun _ _ h => nomatch hp.symm.trans h
          sent := fun _ hd hl => by
            rw [offerStart_busy (s := setMark sd .requested s) hd hl]
            exact ⟨roller_setRoller _ _ _, rfl, rfl⟩
          full := fun _ hd hl => by
            rw [offerStart_full (s := setMark sd .requested s) hd hl, if_neg (by decide)]
            exact ⟨(roller_setRoller _ _ _).trans (unstarted_of_stopped hs), rfl, rfl⟩ }
  · rw [spinSide_moving hs]
    exact {
      only := by cases sd <;> rfl
      moving := fun _ => ⟨rfl, rfl, rfl⟩
      barred := fun h => absurd h hs
      held := fun h => absurd h hs
      sent := fun h => absurd (offersStart_iff.mp h).1 hs
      full := fun h => absurd (offersStart_iff.mp h).1 hs }

/-- The head port takes the STARTs of both sides, or neither (R5). -/
def hasTwoPlaces (s : State) : Prop := s.head.tx ≠ .idle ∧ s.head.queue.length + 2 ≤ 16
def isFull (s : State) : Prop := s.head.tx ≠ .idle ∧ 16 ≤ s.head.queue.length

/-- A side after SPIN's begin, and what was reported of it, as the state before the begin decides them. -/
structure SideBegun (s : State) (sd : Side) (y : RollerSide) (l : List Report) : Prop where
  kept : ¬ (s.roller sd).state = .stopped ∨ barred s sd = true → y = s.roller sd
  held : (s.roller sd).state = .stopped → barred s sd = false → permitted s sd = false →
    y = { s.roller sd with
      state := .held, held := some { origin := .sequence, since := s.clock.laneTime }, testDue := false }
  sent : offersStart s sd = true → hasTwoPlaces s → y = (s.roller sd).started
  full : offersStart s sd = true → isFull s →
    y = { s.roller sd with held := none, testDue := false, outstanding := false, sendTime := none }
  fails : (s.roller sd).state = .stopped ∧ barred s sd = true ∨ offersStart s sd = true ∧ isFull s → l ≠ []
  goesOn : ((s.roller sd).state = .stopped → barred s sd = false ∧ hasTwoPlaces s) → l = []

/-- The head port after SPIN's begin for one side, where it had room. -/
def spinHead (sd : Side) (s : State) : List Frame :=
  if offersStart s sd then [startFrame ((cabinetNode s).getD 0) sd] else []

theorem SpinBegun.head_room {sd : Side} {s t : State} {l : List Report} (h : SpinBegun sd s t l)
    (hb : s.head.tx ≠ .idle) (hl : s.head.queue.length < 16) :
    t.head = { s.head with queue := s.head.queue ++ spinHead sd s } := by
  unfold spinHead
  by_cases ho : offersStart s sd = true
  · rw [if_pos ho]
    exact (h.sent ho hb hl).2.1
  · have same : t.head = s.head := by
      by_cases hs : (s.roller sd).state = .stopped
      · cases hbar : Machine.barred s sd with
        | true => exact (h.barred hs hbar).2.1
        | false =>
          refine (h.held hs hbar ((Bool.not_eq_true _).mp fun hp => ho ?_)).2.1
          exact offersStart_iff.mpr ⟨hs, hbar, hp⟩
      · exact (h.moving hs).2.1
    rw [if_neg ho, List.append_nil, same]

theorem SpinBegun.head_full {sd : Side} {s t : State} {l : List Report} (h : SpinBegun sd s t l)
    (hf : isFull s) : t.head = s.head := by
  by_cases hs : (s.roller sd).state = .stopped
  · cases hbar : Machine.barred s sd with
    | true => exact (h.barred hs hbar).2.1
    | false =>
      cases hp : permitted s sd with
      | false => exact (h.held hs hbar hp).2.1
      | true => exact (h.full (offersStart_iff.mpr ⟨hs, hbar, hp⟩) hf.1 hf.2).2.1
  · exact (h.moving hs).2.1

/-- A side's begin in a state `u` with the side, and what decides of it, as in `s`. -/
theorem SpinBegun.sideBegun {sd : Side} {s u t : State} {l : List Report} (h : SpinBegun sd u t l)
    (hr : u.roller sd = s.roller sd) (hbar : Machine.barred u sd = Machine.barred s sd)
    (hp : permitted u sd = permitted s sd) (hc : u.clock = s.clock)
    (room : hasTwoPlaces s → u.head.tx ≠ .idle ∧ u.head.queue.length < 16) (full : isFull s → isFull u) :
    SideBegun s sd (t.roller sd) l := by
  have ho : offersStart u sd = offersStart s sd := by rw [offersStart, offersStart, hr, hbar, hp]
  obtain ⟨-, moving, barred, held, sent, full'⟩ := h
  rw [ho] at sent full'
  rw [hr] at moving barred held sent full'
  rw [hbar] at barred held
  rw [hp, hc] at held
  refine ⟨fun hk => ?_, fun hs hb hq => (held hs hb hq).1, fun hs hb => (sent hs (room hb).1 (room hb).2).1,
    fun hs hf => (full' hs (full hf).1 (full hf).2).1, fun hk => ?_, fun hk => ?_⟩
  · by_cases hs : (s.roller sd).state = .stopped
    · exact (barred hs (hk.resolve_left fun h => h hs)).1
    · exact (moving hs).1
  · rcases hk with ⟨hs, hb⟩ | ⟨hs, hf⟩
    · rw [(barred hs hb).2.2]
      exact List.cons_ne_nil _ _
    · rw [(full' hs (full hf).1 (full hf).2).2.2]
      exact List.cons_ne_nil _ _
  · by_cases hs : (s.roller sd).state = .stopped
    · obtain ⟨hb, h2⟩ := hk hs
      cases hq : permitted s sd with
      | false => exact (held hs hb hq).2.2
      | true => exact (sent (offersStart_iff.mpr ⟨hs, hb, hq⟩) (room h2).1 (room h2).2).2.2
    · exact (moving hs).2.2

/-- SPIN's begin for both sides, as the state before it decides them (R92, R93). -/
structure SpinBoth (p : PlanStep) (s t : State) (ll lr : List Report) : Prop where
  begin : beginSpin p s = (t, if ll ++ lr ≠ [] then some (byAction .ng p t)
    else if bothUp t then some completed else none)
  left : SideBegun s .left (t.roller .left) ll
  right : SideBegun s .right (t.roller .right) lr
  engine : t.engine = { s.engine with marks :=
    { left := markFor (s.roller .left).state, right := markFor (s.roller .right).state } }
  head : hasTwoPlaces s → t.head = { s.head with queue := s.head.queue ++ (spinHead .left s ++ spinHead .right s) }
  only : t = { s with head := t.head, urgent := t.urgent, headPlace := t.headPlace, station := t.station
                      engine := t.engine, rollers := t.rollers, live := t.live }

theorem beginSpin_both (p : PlanStep) (s : State) : ∃ t ll lr, SpinBoth p s t ll lr := by
  have left := spinSide_begun .left s
  have right := spinSide_begun .right (spinSide .left s).1
  refine ⟨(spinSide .right (spinSide .left s).1).1, (spinSide .left s).2, (spinSide .right (spinSide .left s).1).2, ?_⟩
  have begin : beginSpin p s = ((spinSide .right (spinSide .left s).1).1,
      if (spinSide .left s).2 ++ (spinSide .right (spinSide .left s).1).2 ≠ [] then
        some (byAction .ng p (spinSide .right (spinSide .left s).1).1)
      else if bothUp (spinSide .right (spinSide .left s).1).1 then some completed else none) := by
    unfold beginSpin
    dsimp only
    split
    next h => rw [if_pos (by simpa using h)]
    next h =>
      have none : (spinSide .left s).2 ++ (spinSide .right (spinSide .left s).1).2 = [] := by simpa using h
      rw [if_neg (not_not_intro none)]
  generalize (spinSide .left s).2 = ll at left begin ⊢
  generalize (spinSide .left s).1 = u at left right begin ⊢
  generalize (spinSide .right u).2 = lr at right begin ⊢
  generalize (spinSide .right u).1 = t at right begin ⊢
  have eu := left.only
  have et := right.only
  have roller : u.roller .right = s.roller .right := by rw [eu]; rfl
  have other : t.roller .left = u.roller .left := by rw [et]; rfl
  have hbar : barred u .right = barred s .right := by rw [eu]; rfl
  have hp : permitted u .right = permitted s .right := by rw [eu]; rfl
  have clock : u.clock = s.clock := by rw [eu]
  have room : hasTwoPlaces s → u.head.tx ≠ .idle ∧ u.head.queue.length < 16 := fun ⟨hb, hl⟩ => by
    rw [left.head_room hb (by omega)]
    refine ⟨hb, ?_⟩
    have : (spinHead .left s).length ≤ 1 := by unfold spinHead; split <;> simp
    rw [List.length_append]
    omega
  have places : spinHead .right u = spinHead .right s := by
    have hn : cabinetNode u = cabinetNode s := by rw [eu]; rfl
    rw [spinHead, spinHead, offersStart, offersStart, roller, hbar, hp, hn]
  refine ⟨begin, ?_, right.sideBegun roller hbar hp clock room (fun h => by rw [isFull, left.head_full h]; exact h),
    ?_, fun h => ?_, ?_⟩
  · rw [other]
    exact left.sideBegun rfl rfl rfl rfl (fun ⟨hb, hl⟩ => ⟨hb, by omega⟩) id
  · rw [et, roller, eu]
    rfl
  · obtain ⟨hb, hl⟩ := room h
    rw [right.head_room hb hl, left.head_room h.1 (by have := h.2; omega), places, List.append_assoc]
  · rw [et, eu]

theorem spinHead_both (s : State) : spinHead .left s ++ spinHead .right s =
    ([.left, .right].filter (offersStart s)).map fun sd => startFrame ((cabinetNode s).getD 0) sd := by
  rw [spinHead, spinHead, List.filter_cons, List.filter_cons, List.filter_nil]
  cases offersStart s .left
  · cases offersStart s .right <;> rfl
  · cases offersStart s .right <;> rfl

theorem markFor_up {x : RollerState} (h : markFor x = .up) : x = .running := by
  cases x with
  | running => rfl
  | stopped | held | spinningUp | coasting => exact nomatch h

/-- The begin actions of SPIN, as O26 states them. -/
theorem beginActions_spin {p : PlanStep} (s : State) (hk : p.kind = .spin) :
    let r := beginActions p s
    let runs (sd : Side) := (s.roller sd).state = .running
    let mark (sd : Side) : SideMark := match (s.roller sd).state with
      | .stopped | .held | .spinningUp => .requested
      | .running => .up
      | .coasting => .waitingStandstill
    let asked (sd : Side) := (s.roller sd).state = .stopped
    let blocked (sd : Side) := s.rollers.estop || (s.roller sd).overtemp
    let offered (sd : Side) := decide (asked sd) && !blocked sd && permitted s sd
    let room := s.head.tx ≠ .idle ∧ s.head.queue.length + 2 ≤ 16
    let full := s.head.tx ≠ .idle ∧ 16 ≤ s.head.queue.length
    r.1.engine = { s.engine with marks := { left := mark .left, right := mark .right } } ∧
    (∀ sd,
      let x := s.roller sd
      let y := r.1.roller sd
      (¬ asked sd ∨ blocked sd = true → y = x) ∧
      (asked sd → blocked sd = false → permitted s sd = false →
        y = { x with state := .held, held := some { origin := .sequence, since := s.clock.laneTime },
                     testDue := false }) ∧
      (offered sd = true → room → y = { x with
        state := .spinningUp, held := none, testDue := false, outstanding := true, sendTime := none }) ∧
      (offered sd = true → full →
        y = { x with held := none, testDue := false, outstanding := false, sendTime := none })) ∧
    (room → r.1.head = { s.head with queue := s.head.queue ++
      ([.left, .right].filter offered).map (fun sd => originate ((cabinetNode s).getD 0) 0x04 [0x01, sideByte sd]) }) ∧
    (runs .left → runs .right → r.2 = some completed) ∧
    ((∃ sd, asked sd ∧ blocked sd = true ∨ offered sd = true ∧ full) → r.2 = some (byAction .ng p r.1)) ∧
    ((∃ sd, ¬ runs sd) → (∀ sd, asked sd → blocked sd = false) → room → r.2 = none) ∧
    r.1 = { s with head := r.1.head, urgent := r.1.urgent, headPlace := r.1.headPlace, station := r.1.station,
                   engine := r.1.engine, rollers := r.1.rollers, live := r.1.live } := by
  obtain ⟨t, ll, lr, begin, left, right, engine, head, only⟩ := beginSpin_both p s
  have e : beginActions p s = beginSpin p s := by simp only [beginActions, hk]
  rw [e, begin]
  have side : ∀ sd, ∃ l, SideBegun s sd (t.roller sd) l ∧ (l ≠ [] → ll ++ lr ≠ []) := fun sd => by
    cases sd with
    | left => exact ⟨ll, left, fun h => List.append_ne_nil_of_left_ne_nil h lr⟩
    | right => exact ⟨lr, right, fun h => List.append_ne_nil_of_right_ne_nil ll h⟩
  refine ⟨engine, fun sd => ?_, fun h => ?_, fun hl hr => ?_, fun ⟨sd, h⟩ => ?_, fun ⟨sd, h⟩ hb hroom => ?_, only⟩
  · obtain ⟨l, b, -⟩ := side sd
    exact ⟨b.kept, b.held, b.sent, b.full⟩
  · rw [head h, spinHead_both]
    rfl
  · have none : ll ++ lr = [] := List.append_eq_nil_iff.mpr
      ⟨left.goesOn (fun hs => nomatch hl.symm.trans hs), right.goesOn (fun hs => nomatch hr.symm.trans hs)⟩
    have up : bothUp t = true := by
      rw [bothUp, engine, hl, hr]
      rfl
    exact (if_neg (not_not_intro none)).trans (if_pos up)
  · obtain ⟨l, b, hne⟩ := side sd
    exact if_pos (hne (b.fails h))
  · have none : ll ++ lr = [] := List.append_eq_nil_iff.mpr
      ⟨left.goesOn fun hs => ⟨hb .left hs, hroom⟩, right.goesOn fun hs => ⟨hb .right hs, hroom⟩⟩
    have down : ¬ bothUp t = true := by
      rw [bothUp, engine, Bool.and_eq_true, beq_iff_eq, beq_iff_eq]
      rintro ⟨h1, h2⟩
      cases sd with
      | left => exact h (markFor_up h1)
      | right => exact h (markFor_up h2)
    exact (if_neg (not_not_intro none)).trans (if_neg down)

end Sys2Proof.Machine
end

section
/-! The begin actions of SERVICE, HOLD, PARK and STOP (R94, R95, R112, R117, R122, R128, R137). -/

namespace Sys2Proof.Machine

/-! ### SERVICE, HOLD and PARK -/

/-- A side as a measuring step's begin leaves it, with the increment K of the step when it is HOLD (R94, R117, R122). -/
def measuredRoller (hold : Bool) (k : Nat) (r : RollerSide) : RollerSide :=
  if r.state = .running then
    { r with
      watch := some { engaged := false, count := 0 }
      increment := if hold then k else r.increment
      acc := if hold then 0 else r.acc
      window := if hold then 1 else r.window }
  else { r with increment := if hold then k else r.increment }

/-- The mark of a side at the begin of a measuring step (R94). -/
def measuringMark (x : RollerState) : SideMark := if x = .running then .measuring else .notRun

theorem measureSide_eq (hold : Bool) (sd : Side) (s : State) : measureSide hold sd s = { s with
      engine := { s.engine with marks := s.engine.marks.set sd (measuringMark (s.roller sd).state) },
      rollers := { s.rollers with
        sides := s.rollers.sides.set sd (measuredRoller hold (incrementK s) (s.roller sd)) } } := by
  unfold measureSide measuringMark measuredRoller
  by_cases hr : (s.roller sd).state = .running
  · rw [if_pos (beq_iff_eq.mpr hr), if_pos hr, if_pos hr]
    cases hold <;> cases sd <;> rfl
  · rw [if_neg (fun h => hr (beq_iff_eq.mp h)), if_neg hr, if_neg hr]
    cases hold <;> cases sd <;> rfl

/-- A side of the Evaluator at the begin of a measuring step (R128, R137). -/
def measuredSide (hold : Bool) (x : RollerState) : EvalSide :=
  { EvalSide.reset with phase := if ¬ x = .running then .idle else if hold then .engaged else .waitingEngage }

theorem beginSide_eq (hold : Bool) (x : RollerState) :
    beginSide (if hold then .hold else .force) (measuringMark x == .measuring) = measuredSide hold x := by
  cases hold <;> cases x <;> rfl

theorem measuredSide_active (hold : Bool) (x : RollerState) :
    (measuredSide hold x).active = decide (x = .running) := by
  cases hold <;> cases x <;> rfl

theorem beginForce_eq (hold : Bool) (s : State) : beginForce hold s = ({ s with
    engine := { s.engine with marks :=
      { left := measuringMark (s.roller .left).state, right := measuringMark (s.roller .right).state } },
    rollers := { s.rollers with sides :=
      { left := measuredRoller hold (incrementK s) (s.roller .left),
        right := measuredRoller hold (incrementK s) (s.roller .right) } },
    eval := { Evaluator.reset with
      activity := if hold then .hold else .force
      sides := { left := measuredSide hold (s.roller .left).state,
                 right := measuredSide hold (s.roller .right).state } } },
    if (s.roller .left).state = .running ∨ (s.roller .right).state = .running then none else some completed) := by
  unfold beginForce
  rw [measureSide_eq hold .right, measureSide_eq hold .left]
  generalize hm : beginMeasure (if hold then .hold else .force) _ = m
  have eval : m.eval = { Evaluator.reset with
      activity := if hold then .hold else .force
      sides := { left := measuredSide hold (s.roller .left).state,
                 right := measuredSide hold (s.roller .right).state } } := by
    rw [← hm, ← beginSide_eq, ← beginSide_eq]
    rfl
  have ended : sidesEnded m = decide (¬ ((s.roller .left).state = .running ∨ (s.roller .right).state = .running)) := by
    rw [sidesEnded, eval, measuredSide_active, measuredSide_active]
    simp
  have only : m = { s with
      engine := { s.engine with marks :=
        { left := measuringMark (s.roller .left).state, right := measuringMark (s.roller .right).state } },
      rollers := { s.rollers with sides :=
        { left := measuredRoller hold (incrementK s) (s.roller .left),
          right := measuredRoller hold (incrementK s) (s.roller .right) } },
      eval := m.eval } := by
    rw [← hm]
    rfl
  dsimp only
  rw [ended, ← eval, ← only]
  by_cases h : (s.roller .left).state = .running ∨ (s.roller .right).state = .running
  · simp [h]
  · simp [h]

theorem beginActions_force {p : PlanStep} (hk : p.kind = .service ∨ p.kind = .hold ∨ p.kind = .park) (s : State) :
    beginActions p s = beginForce (decide (p.kind = .hold)) s := by
  unfold beginActions
  rcases hk with hk | hk | hk
  · rw [hk]
    rfl
  · rw [hk]
    rfl
  · rw [hk]
    rfl

/-- The begin actions of SERVICE, HOLD and PARK, as O26 states them. -/
theorem beginActions_measuring {p : PlanStep} (hk : p.kind = .service ∨ p.kind = .hold ∨ p.kind = .park) (s : State) :
    let runs (sd : Side) := (s.roller sd).state = .running
    let hold := p.kind = .hold
    let side (sd : Side) : RollerSide :=
      let x := { s.roller sd with increment := if hold then incrementK s else (s.roller sd).increment }
      if runs sd then { x with
        watch := some { engaged := false, count := 0 }, acc := if hold then 0 else x.acc,
        window := if hold then 1 else x.window } else x
    let mark (sd : Side) : SideMark := if runs sd then .measuring else .notRun
    let measured (sd : Side) : EvalSide := { EvalSide.reset with
      phase := if ¬ runs sd then .idle else if hold then .engaged else .waitingEngage }
    beginActions p s = ({ s with
      engine := { s.engine with marks := { left := mark .left, right := mark .right } },
      rollers := { s.rollers with sides := { left := side .left, right := side .right } },
      eval := { Evaluator.reset with
        activity := if hold then .hold else .force,
        sides := { left := measured .left, right := measured .right } } },
      if runs .left ∨ runs .right then none else some completed) := by
  rw [beginActions_force hk, beginForce_eq]
  by_cases hold : p.kind = .hold
  · rw [hold]
    rfl
  · rw [decide_eq_false hold]
    simp only [if_neg hold]
    rfl

end Sys2Proof.Machine
end

section
/-! The begin actions of STOP (R7, R9, R95, R112). -/

namespace Sys2Proof.Machine

/-! ### An offered STOP -/

/-- A STOP that waits is taken before any frame of the queue (R8). -/
theorem takeHead_queue {s : State} (h : s.urgent ≠ none ∨ s.headPlace ≠ none) :
    (takeHead s).head.queue = s.head.queue := by
  unfold takeHead
  cases s.head.tx with
  | taken f => rfl
  | sending f l => rfl
  | idle =>
    cases hu : s.urgent with
    | some w => rfl
    | none =>
      cases hv : s.headPlace with
      | some w => rfl
      | none => exact absurd (h.resolve_left (absurd hu)) (absurd hv)

/-- A placed STOP waits in one of the two places (R7). -/
theorem placeStop_waits (sd : Side) (f : Frame) (s : State) : stopWaits sd (placeStop sd f s) = true := by
  rw [placeStop_eq]
  cases hw : stopWaits sd s with
  | true => simpa [stopWaits] using hw
  | false => cases s.urgent <;> simp [stopWaits]

theorem stopWaits_place {sd : Side} {s : State} (h : stopWaits sd s = true) : s.urgent ≠ none ∨ s.headPlace ≠ none := by
  rcases Bool.or_eq_true_iff.mp h with h | h
  · exact .inl fun e => by rw [e] at h; exact nomatch h
  · exact .inr fun e => by rw [e] at h; exact nomatch h

/-- Of the queue, an offered STOP takes the STARTs of its side, and nothing else (R9). -/
theorem offerStop_queue (sd : Side) (s : State) :
    (offerStop sd s).1.head.queue = s.head.queue.filter fun f => !isStart sd f := by
  rw [offerStop_eq]
  dsimp only
  rw [takeHead_queue (stopWaits_place (placeStop_waits sd _ _)), placeStop_eq]
  rfl

theorem offerStop_outstanding (sd : Side) (s : State) : (offerStop sd s).1.roller sd =
    { s.roller sd with outstanding := !startQueued sd s && (s.roller sd).outstanding } := by
  rw [offerStop_eq]
  obtain ⟨x, u, v, e, -⟩ := takeHead_only (placeStop sd (stopFrame ((cabinetNode s).getD 0) sd) (removeStarts sd s))
  dsimp only
  rw [e, placeStop_eq]
  exact roller_setRoller s sd _

/-- At a busy port the offered STOP waits (R7). -/
theorem offerStop_waits {sd : Side} {s : State} (h : s.head.tx ≠ .idle) : stopWaits sd (offerStop sd s).1 = true := by
  have hb : (placeStop sd (stopFrame ((cabinetNode s).getD 0) sd) (removeStarts sd s)).head.tx ≠ .idle := by
    rw [placeStop_eq]
    exact h
  rw [offerStop_eq]
  dsimp only
  rw [takeHead_busy hb]
  exact placeStop_waits _ _ _

theorem eq_otherSide {a b : Side} (h : a ≠ b) : a = otherSide b := by
  cases a <;> cases b <;> simp_all [otherSide]

/-- At a busy port an offered STOP leaves the waiting STOP of the other side (R7). -/
theorem offerStop_keeps {sd sd' : Side} {s : State} (h : s.head.tx ≠ .idle) (hne : sd' ≠ sd)
    (hw : stopWaits sd' s = true) : stopWaits sd' (offerStop sd s).1 = true := by
  rw [offerStop_busy h]
  rcases Bool.or_eq_true_iff.mp hw with hu | hv
  · have some : s.urgent ≠ none := fun e => by rw [e] at hu; exact nomatch hu
    simp [stopWaits, some, hu]
  · by_cases hp : stopWaits sd s = false ∧ s.urgent ≠ none
    · obtain ⟨w, hs⟩ := Option.ne_none_iff_exists'.mp hp.2
      have side : w.side ≠ sd := fun e => by simp [stopWaits, hs, e] at hp
      have : w.side = sd' := (eq_otherSide side).trans (eq_otherSide hne).symm
      simp [stopWaits, hs, this]
    · exact Bool.or_eq_true_iff.mpr (.inr ((congrArg (Option.any _) (if_neg hp)).trans hv))

/-! ### A side stopped by a step (R95, R112) -/

/-- The side turns, so that its stop offers a STOP (R95). -/
def turns (s : State) (sd : Side) : Prop := (s.roller sd).state = .running ∨ (s.roller sd).state = .spinningUp

/-- What STOP's begin does for one side. -/
structure StopBegun (sd : Side) (s t : State) : Prop where
  only : t = { s with
    head := t.head, urgent := t.urgent, headPlace := t.headPlace, station := t.station, live := t.live,
    rollers := { s.rollers with sides := s.rollers.sides.set sd (t.roller sd) } }
  rests : (s.roller sd).state = .stopped ∨ (s.roller sd).state = .coasting → t.roller sd = s.roller sd
  running : (s.roller sd).state = .running → t.roller sd = { s.roller sd with
    state := .coasting, sendTime := none, watch := none, window := 0,
    outstanding := !startQueued sd s && (s.roller sd).outstanding }
  spinningUp : (s.roller sd).state = .spinningUp → t.roller sd = { s.roller sd with
    state := if startQueued sd s then .stopped else .coasting, sendTime := none, watch := none, window := 0,
    outstanding := !startQueued sd s && (s.roller sd).outstanding }
  held : (s.roller sd).state = .held →
    t.roller sd = { s.roller sd with state := .stopped, held := none, testDue := false }
  waits : turns s sd → s.head.tx ≠ .idle → stopWaits sd t = true
  keeps : s.head.tx ≠ .idle → ∀ sd', sd' ≠ sd → stopWaits sd' s = true → stopWaits sd' t = true
  busy : turns s sd → s.head.tx ≠ .idle → t.head = { s.head with queue := s.head.queue.filter fun f => !isStart sd f }
  queue : turns s sd → t.head.queue = s.head.queue.filter fun f => !isStart sd f
  quiet : ¬ turns s sd → t.head = s.head ∧ t.urgent = s.urgent ∧ t.headPlace = s.headPlace

/-- A turning side: its STOP is offered, and the side goes to a state (R112). -/
theorem stopBegun_offers {sd : Side} {s : State} {st : RollerState} (ht : turns s sd)
    (hst : (s.roller sd).state = .running ∧ st = .coasting ∨
      (s.roller sd).state = .spinningUp ∧ st = if startQueued sd s then .stopped else .coasting) :
    StopBegun sd s ((offerStop sd s).1.setRoller sd (((offerStop sd s).1.roller sd).stopAs st)) where
  only := by
    obtain ⟨x, u, v, b, e⟩ := offerStop_stopping sd s
    rw [e]
    cases sd <;> rfl
  rests := by rcases ht with h | h <;> rw [h] <;> exact fun k => k.elim nofun nofun
  running := fun h => by
    obtain rfl : st = .coasting := (hst.resolve_right fun k => nomatch h.symm.trans k.1).2
    rw [roller_setRoller, offerStop_outstanding]
    rfl
  spinningUp := fun h => by
    obtain rfl : st = if startQueued sd s then .stopped else .coasting :=
      (hst.resolve_left fun k => nomatch h.symm.trans k.1).2
    rw [roller_setRoller, offerStop_outstanding]
    rfl
  held := fun h => by rcases ht with k | k <;> exact nomatch h.symm.trans k
  waits := fun _ hb => offerStop_waits hb
  keeps := fun hb sd' hne hw => offerStop_keeps hb hne hw
  busy := fun _ hb => offerStop_head_busy hb
  queue := fun _ => offerStop_queue sd s
  quiet := fun h => absurd ht h

theorem not_turns {s : State} {sd : Side} {x : RollerState} (h : (s.roller sd).state = x)
    (hx : x = .stopped ∨ x = .held ∨ x = .coasting) : ¬ turns s sd := by
  rcases hx with rfl | rfl | rfl <;> simp [turns, h]

/-- A side that neither turns nor is held is left alone (R95). -/
theorem stopBegun_refl {sd : Side} {s : State}
    (h : (s.roller sd).state = .stopped ∨ (s.roller sd).state = .coasting) : StopBegun sd s s := by
  have ht : ¬ turns s sd := h.elim (fun e => not_turns e (.inl rfl)) (fun e => not_turns e (.inr (.inr rfl)))
  exact {
    only := by cases sd <;> rfl
    rests := fun _ => rfl
    running := fun e => absurd (.inl e) ht
    spinningUp := fun e => absurd (.inr e) ht
    held := fun e => h.elim (fun k => nomatch e.symm.trans k) (fun k => nomatch e.symm.trans k)
    waits := fun k => absurd k ht
    keeps := fun _ _ _ => id
    busy := fun k => absurd k ht
    queue := fun k => absurd k ht
    quiet := fun _ => ⟨rfl, rfl, rfl⟩ }

theorem stopTurning_begun (sd : Side) (s : State) : StopBegun sd s (stopTurning sd s) := by
  cases hs : (s.roller sd).state with
  | running =>
    have e : stopTurning sd s = (offerStop sd s).1.setRoller sd (((offerStop sd s).1.roller sd).stopAs .coasting) := by
      simp only [stopTurning, laneStop, hs]
      rfl
    rw [e]
    exact stopBegun_offers (.inl hs) (.inl ⟨hs, rfl⟩)
  | spinningUp =>
    have e : stopTurning sd s = (offerStop sd s).1.setRoller sd (((offerStop sd s).1.roller sd).stopAs
        (if startQueued sd s then .stopped else .coasting)) := by
      simp only [stopTurning, laneStop, hs]
      rfl
    rw [e]
    exact stopBegun_offers (.inr hs) (.inr ⟨hs, rfl⟩)
  | held =>
    have e : stopTurning sd s = cancelHeld sd .lane .stopped s := by simp only [stopTurning, laneStop, hs]
    have ht : ¬ turns s sd := not_turns hs (.inr (.inl rfl))
    obtain ⟨y, n, ec⟩ := cancelHeld_only sd .lane .stopped s
    rw [e, ec]
    exact {
      only := by cases sd <;> rfl
      rests := fun h => h.elim (fun k => nomatch hs.symm.trans k) (fun k => nomatch hs.symm.trans k)
      running := fun h => absurd (.inl h) ht
      spinningUp := fun h => absurd (.inr h) ht
      held := fun _ => stopping_roller _ _ _ _ _ _ _ _
      waits := fun h => absurd h ht
      keeps := fun _ _ _ => id
      busy := fun h => absurd h ht
      queue := fun h => absurd h ht
      quiet := fun _ => ⟨rfl, rfl, rfl⟩ }
  | stopped =>
    have e : stopTurning sd s = s := by simp only [stopTurning, hs]
    rw [e]
    exact stopBegun_refl (.inl hs)
  | coasting =>
    have e : stopTurning sd s = s := by simp only [stopTurning, hs]
    rw [e]
    exact stopBegun_refl (.inr hs)

/-! ### Both sides -/

/-- The STARTs of the other side are not among those that a STOP removes. -/
theorem any_filter_isStart (l : List Frame) :
    (l.filter fun f => !isStart .left f).any (isStart .right) = l.any (isStart .right) := by
  induction l with
  | nil => rfl
  | cons f rest ih =>
    rw [List.filter_cons]
    cases hf : isStart .left f with
    | true =>
      have other : isStart .right f = false := isStart_other hf
      simpa [other] using ih
    | false => simp [ih]

theorem StopBegun.startQueued {s u : State} (h : StopBegun .left s u) :
    startQueued .right u = Machine.startQueued .right s := by
  unfold Machine.startQueued
  by_cases ht : turns s .left
  · rw [h.queue ht, any_filter_isStart]
  · rw [(h.quiet ht).1]

theorem StopBegun.tx {sd : Side} {s u : State} (h : StopBegun sd s u) (hb : s.head.tx ≠ .idle) :
    u.head.tx ≠ .idle := by
  by_cases ht : turns s sd
  · rw [h.busy ht hb]
    exact hb
  · rw [(h.quiet ht).1]
    exact hb

/-- The queue of a busy head port after STOP's begin for one side (R9). -/
theorem StopBegun.filtered {sd : Side} {s t : State} (h : StopBegun sd s t) (hb : s.head.tx ≠ .idle) :
    t.head = { s.head with queue := s.head.queue.filter fun f =>
      !(decide ((s.roller sd).state = .running ∨ (s.roller sd).state = .spinningUp) && isStart sd f) } := by
  by_cases ht : (s.roller sd).state = .running ∨ (s.roller sd).state = .spinningUp
  · rw [h.busy ht hb, decide_eq_true ht]
    simp only [Bool.true_and]
  · rw [(h.quiet ht).1, decide_eq_false ht]
    simp

/-- The begin actions of STOP, as O26 states them. -/
theorem beginActions_stop {p : PlanStep} (s : State) (hk : p.kind = .stop) :
    let r := beginActions p s
    let turns (sd : Side) := (s.roller sd).state = .running ∨ (s.roller sd).state = .spinningUp
    (∀ sd,
      let x := s.roller sd
      let y := r.1.roller sd
      let queued := s.head.queue.any (isStart sd)
      (x.state = .stopped ∨ x.state = .coasting → y = x) ∧
      (x.state = .running → y = { x with
        state := .coasting, sendTime := none, watch := none, window := 0,
        outstanding := !queued && x.outstanding }) ∧
      (x.state = .spinningUp → y = { x with
        state := if queued then .stopped else .coasting, sendTime := none, watch := none, window := 0,
        outstanding := !queued && x.outstanding }) ∧
      (x.state = .held → y = { x with state := .stopped, held := none, testDue := false }) ∧
      (turns sd → s.head.tx ≠ .idle →
        (r.1.urgent.any (·.side == sd) || r.1.headPlace.any (·.side == sd)) = true)) ∧
    (s.head.tx ≠ .idle → r.1.head = { s.head with
      queue := s.head.queue.filter fun f =>
        !(decide (turns .left) && isStart .left f || decide (turns .right) && isStart .right f) }) ∧
    ((∀ sd, ¬ turns sd) → r.1.head = s.head ∧ r.1.urgent = s.urgent ∧ r.1.headPlace = s.headPlace) ∧
    r.2 = (if (r.1.roller .left).state = .stopped ∧ (r.1.roller .right).state = .stopped then some completed
      else none) ∧
    r.1 = { s with head := r.1.head, urgent := r.1.urgent, headPlace := r.1.headPlace, station := r.1.station,
                   rollers := r.1.rollers, live := r.1.live } := by
  have e : beginActions p s = (stopTurning .right (stopTurning .left s),
      if bothStopped (stopTurning .right (stopTurning .left s)) then some completed else none) := by
    simp only [beginActions, hk]
    rfl
  have left := stopTurning_begun .left s
  have right := stopTurning_begun .right (stopTurning .left s)
  rw [e]
  generalize stopTurning .left s = u at left right ⊢
  generalize stopTurning .right u = t at right ⊢
  have eu := left.only
  have et := right.only
  have roller : u.roller .right = s.roller .right := by rw [eu]; rfl
  have other : t.roller .left = u.roller .left := by rw [et]; rfl
  have queued := left.startQueued
  have turning : turns u .right ↔ turns s .right := by rw [turns, turns, roller]
  refine ⟨fun sd => ?_, fun hb => ?_, fun hn => ?_, ?_, ?_⟩
  · cases sd with
    | left =>
      dsimp only
      rw [other]
      exact ⟨left.rests, left.running, left.spinningUp, left.held,
        fun ht hb => right.keeps (left.tx hb) .left (by decide) (left.waits ht hb)⟩
    | right =>
      obtain ⟨-, rests, running, spinningUp, held, waits, -⟩ := right
      rw [roller] at rests running spinningUp held
      rw [queued] at running spinningUp
      exact ⟨rests, running, spinningUp, held, fun ht hb => waits (turning.mpr ht) (left.tx hb)⟩
  · rw [right.filtered (left.tx hb), left.filtered hb, roller]
    simp only [List.filter_filter, Bool.not_or, Bool.and_comm]
  · have h1 := left.quiet (hn .left)
    have h2 := right.quiet fun ht => hn .right (turning.mp ht)
    exact ⟨h2.1.trans h1.1, h2.2.1.trans h1.2.1, h2.2.2.trans h1.2.2⟩
  · refine if_congr ?_ rfl rfl
    simp [bothStopped]
  · rw [et, eu]

end Sys2Proof.Machine
end

section
/-! The begin of FINISH: the evaluation, the certificate and the exit (R81, R84, R89, R96, R166). -/

namespace Sys2Proof.Machine

/-! ### The certificate (R96, R166) -/

/-- The certificate joined to the queue: what its assembly replaces. -/
structure Certified (v : VehicleRecord) (r : VehicleResults) (s t : State) : Prop where
  only : t = { s with station := t.station, certs := t.certs, live := t.live }
  number : t.certs.number = s.certs.number + 1
  queue : t.certs.queue = s.certs.queue ++ [assemble (s.certs.number + 1) v r s.clock.live s.clock.hold]
  count : t.live.certificates = s.live.certificates + 1

theorem queueCertificate_room {v : VehicleRecord} {r : VehicleResults} {s : State} (hl : s.certs.queue.length < 4)
    (hv : s.vehicle = some v) (hr : v.results = some r) :
    ∃ t, queueCertificate s = some t ∧ Certified v r s t := by
  have room : ¬ certCap ≤ s.certs.queue.length := Nat.not_le.mpr hl
  have results : (s.vehicle.bind fun v => v.results.map fun r => (v, r)) = some (v, r) := by rw [hv]; simp [hr]
  unfold queueCertificate
  rw [if_neg room, results]
  dsimp only
  refine ⟨_, rfl, ?_⟩
  split
  · generalize hu : becomeOldest _ = u
    have eu : u = { s with certs := u.certs, live := u.live } := by rw [← hu]; rfl
    have number : u.certs.number = s.certs.number + 1 := by rw [← hu]; rfl
    have queue : u.certs.queue = s.certs.queue ++ [assemble (s.certs.number + 1) v r s.clock.live s.clock.hold] := by
      rw [← hu]; rfl
    have count : u.live.certificates = s.live.certificates + 1 := by rw [← hu]; rfl
    obtain ⟨only, ⟨n, live⟩, -, certs⟩ := certSendIfRoom_only u
    generalize certSendIfRoom u = t at only live certs ⊢
    refine ⟨?_, ?_, ?_, ?_⟩
    · rw [only, eu]
    · rw [← number]
      rcases certs with h | h <;> rw [h]
      rfl
    · rw [← queue]
      rcases certs with h | h <;> rw [h]
      rfl
    · rw [live, ← count]
      rfl
  · exact ⟨rfl, rfl, rfl, rfl⟩

theorem queueCertificate_full {s : State} (h : 4 ≤ s.certs.queue.length) : queueCertificate s = none :=
  if_pos h

/-! ### The begin of FINISH (R88, R96) -/

/-- FINISH begun, up to its evaluation. -/
structure Finishing (o : BeginOccasion) (v : VehicleRecord) (r : VehicleResults) (s t : State) : Prop where
  begin : beginStep o s = tryFinish t
  only : t = { s with head := t.head, urgent := t.urgent, headPlace := t.headPlace, station := t.station
                      engine := { s.engine.begun o with pendingGuide := t.engine.pendingGuide }
                      vehicle := some { v with results := some r }, live := t.live }
  count : t.live.certificates = s.live.certificates

theorem evaluateVehicle_only {v : VehicleRecord} {s : State} (hv : s.vehicle = some v) :
    let r := evaluate (limits s) (axleSection s.working (s.engine.plan.getD 0)) (hasPlateHead s) v
    ∃ y n, evaluateVehicle s =
      { s with vehicle := some { v with results := some r }, station := y, live := overrunCount s.live .station n } := by
  intro r
  have e : evaluateVehicle s = vehicleResultNotice v.aborted r
      { s with vehicle := some { v with results := some r } } := by
    unfold evaluateVehicle
    rw [hv]
  obtain ⟨y, n, e2, -⟩ := notice_only 0x05
    (word32 s.now ++ flagByte v.aborted ++ optional signed16 r.service
      ++ be8 (verdictCode r.serviceVerdict) ++ flagByte r.lockCredit ++ optional signed16 r.park
      ++ be8 (verdictCode r.parkVerdict) ++ be8 (countVerdicts r .pass) ++ be8 (countVerdicts r .fail)
      ++ be8 (countVerdicts r .notEvaluated) ++ be8 (overallCode r.overall))
    { s with vehicle := some { v with results := some r } }
  exact ⟨y, n, e.trans e2⟩

theorem beginStep_finish {o : BeginOccasion} {plan : Nat} {p : PlanStep} {v : VehicleRecord} {s : State}
    (hv : s.vehicle = some v) (hplan : s.engine.plan = some plan) (hp : currentStep s = some p) (hk : p.kind = .finish)
    (hd : (settings s).driveFaultEnable = true → s.lane.causes.driveFault = true ∨ anyOvertemp s = false) :
    ∃ t, Finishing o v (evaluate (limits s) (axleSection s.working plan) (hasPlateHead s) v) s t ∧
      t.head = (announced p o s).head ∧ t.urgent = (announced p o s).urgent ∧
      t.headPlace = (announced p o s).headPlace ∧
      t.engine.pendingGuide = (announced p o s).engine.pendingGuide := by
  have fresh : neededStale s = false := by
    have : currentKind s = some .finish := by rw [currentKind, hp, Option.map_some, hk]
    rw [neededStale, this]
    rfl
  have begun := beginStep_eq (o := o) hp (fun _ => .inr fresh) hd
  have finish : beginActions p (announced p o s) = tryFinish (evaluateVehicle (announced p o s)) := by
    simp only [beginActions, hk]
  obtain ⟨x, u, w, y, n, m, ea⟩ := announced_only p o s
  obtain ⟨y', n', ev⟩ := evaluateVehicle_only (v := v) (s := announced p o s) (by rw [ea]; exact hv)
  refine ⟨_, ⟨begun.trans finish, ?_, ?_⟩, ?_, ?_, ?_, ?_⟩
  all_goals rw [ev]
  · have e1 : limits (announced p o s) = limits s := by rw [ea]; rfl
    have e2 : (announced p o s).engine.plan = some plan := by rw [ea]; exact hplan
    have e3 : (announced p o s).working = s.working := by rw [ea]
    have e4 : hasPlateHead (announced p o s) = hasPlateHead s := by rw [ea]; rfl
    rw [e1, e2, e3, e4, ea]
    rfl
  · rw [ea]
    rfl

/-! ### The exit (R84, R89) -/

/-- The state of a concluded FINISH, its Step Engine cleared (R89). -/
def concluded (s : State) : State :=
  clearEngine (stepEndNotice .finish .completed .ok (flushBatches (watchesOff (resetEval s))))

theorem endStep_finish {s : State} (hk : currentKind s = some .finish) :
    endStep completed s = (enterExit .stepEnd (concluded s), none) := by
  have none : results true s = none := by simp only [results, hk]
  have conclude : concludeStep completed .finish s =
      stepEndNotice .finish .completed .ok (flushBatches (watchesOff (resetEval s))) := by
    show writeResults completed .finish (results true s) s = _
    rw [none]
    rfl
  simp only [endStep, hk, conclude]
  rfl

theorem stepEndNotice_speaks (k : StepKind) (en : StepEnding) (o : StepOutcome) (s : State) :
    Speaks s (stepEndNotice k en o s) := by
  unfold stepEndNotice
  exact notice_speaks _ _ s

/-- A concluded FINISH: the measurement is dropped, the watches are off, the batches are empty (R89). -/
structure Concluded (s t : State) : Prop where
  only : t = { s with station := t.station, quantities := t.quantities, live := t.live, eval := Evaluator.reset
                      engine := { EngineState.reset with pendingGuide := s.engine.pendingGuide }
                      rollers := (watchesOff s).rollers }
  count : t.live.certificates = s.live.certificates
  qty : ∀ q, (t.qty q).batch.values = [] ∧ t.qty q = { s.qty q with batch := (t.qty q).batch }

theorem concluded_concluded (s : State) : Concluded s (concluded s) := by
  have speaks := (flushBatches_speaks (watchesOff (resetEval s))).trans (stepEndNotice_speaks .finish .completed .ok _)
  have values : ∀ q, ((stepEndNotice .finish .completed .ok (flushBatches (watchesOff (resetEval s)))).qty q).batch.values
      = [] := fun q => (stepEndNotice_speaks _ _ _ _).emptied q (flushBatches_values _ q)
  unfold concluded
  generalize stepEndNotice .finish .completed .ok (flushBatches (watchesOff (resetEval s))) = c at speaks values ⊢
  have ec := speaks.only
  refine ⟨?_, ?_, fun q => ⟨values q, speaks.qty q⟩⟩
  · unfold clearEngine State.setEngine
    rw [ec]
    rfl
  · show c.live.certificates = _
    rw [speaks.counts]
    rfl

theorem laneStopBoth_stopped {s : State} (h : ∀ sd, (s.roller sd).state = .stopped) : (laneStopBoth s).1 = s := by
  have left : laneStop .left s = (s, []) := by simp only [laneStop, h]
  have right : laneStop .right s = (s, []) := by simp only [laneStop, h]
  unfold laneStopBoth
  rw [left]
  dsimp only
  rw [right]

/-- The exit guidance "drive off" (R84). -/
def exitFrame (s : State) : Frame := originate ((displayNode s).getD 0) kindGuide [251, 0, 0]

/-- The lane in EXIT, its sides asked to stop and the driver asked to leave (R84). -/
structure Exited (s t : State) : Prop where
  only : t = { s with
    head := t.head, urgent := t.urgent, headPlace := t.headPlace, station := t.station, quantities := t.quantities
    live := t.live, rollers := { s.rollers with sides := t.rollers.sides }
    lane := { s.lane with state := .exit, causes := onlyEstop s.lane.causes }
    engine := { s.engine with pendingGuide := t.engine.pendingGuide } }
  count : t.live.certificates = s.live.certificates
  side : ∀ sd, StoppedFrom (s.roller sd) (t.roller sd)
  qty : ∀ q, (t.qty q).batch.values = [] ∧ t.qty q = { s.qty q with batch := (t.qty q).batch }
  guide : (∀ sd, (s.roller sd).state = .stopped) → s.head.tx ≠ .idle → s.head.queue.length < 16 →
    t.engine.pendingGuide = none ∧ t.urgent = s.urgent ∧ t.headPlace = s.headPlace ∧
    t.head = { s.head with queue := s.head.queue ++ [exitFrame s] }

theorem enterExit_exited (o : LaneOccasion) (s : State) : Exited s (enterExit o s) := by
  have speaks := enterLane_speaks id_speaks .exit o (s.setLane fun l => { l with causes := onlyEstop l.causes })
  have values := enterLane_values id .exit o (s.setLane fun l => { l with causes := onlyEstop l.causes })
  unfold enterExit
  dsimp only
  generalize enterLane .exit o id (s.setLane fun l => { l with causes := onlyEstop l.causes }) = u at speaks values ⊢
  have eu := speaks.only
  have roller : ∀ sd, u.roller sd = s.roller sd := fun sd => by rw [eu]; rfl
  obtain ⟨x, ur, w, y, n, l, r, es, hl, hr⟩ := laneStopBoth_only u
  obtain ⟨x', ur', w', m, eg, -⟩ := offerGuide_only { message := 251, axle := 0, fields := none } (laneStopBoth u).1
  have ex : exitGuide (laneStopBoth u).1 = _ := eg
  refine ⟨?_, ?_, fun sd => ?_, fun q => ?_, fun hs hb hq => ?_⟩
  · rw [ex, es, eu]
    rfl
  · have count : u.live.certificates = s.live.certificates := by
      rw [speaks.counts]
      rfl
    rw [ex, es]
    exact count
  · rw [ex, es]
    cases sd with
    | left => exact roller .left ▸ hl
    | right => exact roller .right ▸ hr
  · rw [ex, es]
    exact ⟨values q, speaks.qty q⟩
  · have stopped : (laneStopBoth u).1 = u := laneStopBoth_stopped fun sd => by rw [roller, hs]
    have head : u.head = s.head := by rw [eu]; rfl
    have guided : exitGuide u = { u with
        head := { u.head with queue := u.head.queue ++ [exitFrame u] },
        engine := { u.engine with pendingGuide := none } } := by
      refine (offerGuide_busy _ (by rw [head]; exact hb)).trans ((if_pos (by rw [head]; exact hq)).trans ?_)
      rfl
    rw [stopped, guided]
    have frame : exitFrame u = exitFrame s := by rw [eu]; rfl
    refine ⟨rfl, by rw [eu]; rfl, by rw [eu]; rfl, ?_⟩
    dsimp only
    rw [frame, head]

/-! ### The step guidance (R103) -/

/-- The guidance of a step (R103). -/
def stepFrame (p : PlanStep) (o : BeginOccasion) (v : VehicleRecord) (s : State) : Frame :=
  originate ((displayNode s).getD 0) kindGuide [p.message, BitVec.ofNat 8 s.engine.axle, 3, BitVec.ofNat 8 v.n,
    BitVec.ofNat 8 (s.engine.begun o).attempt]

theorem announced_busy {p : PlanStep} {v : VehicleRecord} {s : State} (o : BeginOccasion)
    (hp : currentStep s = some p) (hv : s.vehicle = some v) (hb : s.head.tx ≠ .idle) (hq : s.head.queue.length < 16) :
    (announced p o s).head = { s.head with queue := s.head.queue ++ [stepFrame p o v s] } ∧
    (announced p o s).urgent = s.urgent ∧ (announced p o s).headPlace = s.headPlace := by
  obtain ⟨y, n, e, -⟩ := notice_only 0x02
    (word32 s.now ++ be8 (s.engine.plan.getD 0) ++ be8 (s.engine.step.getD 0) ++ be8 (stepKindCode p.kind)
      ++ be8 s.engine.axle ++ be8 (s.engine.begun o).attempt ++ be8 (beginCode o))
    { s with engine := s.engine.begun o }
  have noticed : stepBeginNotice p.kind o { s with engine := s.engine.begun o } = _ := e
  generalize hu : stepBeginNotice p.kind o { s with engine := s.engine.begun o } = u at noticed
  have head : u.head = s.head := by rw [noticed]
  have current : currentStep u = some p := by rw [noticed]; exact hp
  have frame : guideFrame (stepGuide p u) u = stepFrame p o v s := by
    have vehicle : u.vehicle = some v := by rw [noticed]; exact hv
    have engine : u.engine = s.engine.begun o := by rw [noticed]
    have display : displayNode u = displayNode s := by rw [noticed]; rfl
    unfold guideFrame stepGuide
    rw [vehicle, engine, display]
    rfl
  have guided : announced p o s = { u with
      head := { u.head with queue := u.head.queue ++ [stepFrame p o v s] },
      engine := { u.engine with pendingGuide := none } } := by
    unfold announced guideStep
    rw [hu, current]
    exact (offerGuide_busy _ (by rw [head]; exact hb)).trans ((if_pos (by rw [head]; exact hq)).trans (by rw [frame]))
  rw [guided, head]
  exact ⟨rfl, by rw [noticed], by rw [noticed]⟩

/-! ### FINISH with the queue full (R81, R96) -/

/-- FINISH kept waiting for a place in the Certificate Queue (R81). -/
def State.certFull (s : State) : State :=
  (s.setEngine fun e => { e with phase := .suspendedContinue }).setLane fun l =>
    { l with causes := { l.causes with certFull := true } }

theorem tryFinish_full {s : State} (h : 4 ≤ s.certs.queue.length) :
    (tryFinish s).2 = none ∧ Speaks (s.certFull.setLane fun l => { l with state := .paused }) (tryFinish s).1 ∧
    ∀ q, ((tryFinish s).1.qty q).batch.values = [] := by
  have held : tryFinish s = (enterLane .paused .pauseCause id s.certFull, none) := by
    unfold tryFinish
    rw [queueCertificate_full h]
    rfl
  rw [held]
  have speaks := enterLane_speaks id_speaks .paused .pauseCause s.certFull
  have values := enterLane_values id .paused .pauseCause s.certFull
  dsimp only
  exact ⟨rfl, speaks, values⟩

/-- FINISH begun with four certificates waiting (R81, R89). -/
structure FinishHeld (o : BeginOccasion) (v : VehicleRecord) (r : VehicleResults) (s t : State) : Prop where
  lane : t.lane = { s.lane with state := .paused, causes := { s.lane.causes with certFull := true } }
  engine : t.engine = { s.engine.begun o with phase := .suspendedContinue, pendingGuide := t.engine.pendingGuide }
  qty : ∀ q, (t.qty q).batch.values = [] ∧ t.qty q = { s.qty q with batch := (t.qty q).batch }
  vehicle : t.vehicle = some { v with results := some r }
  only : t = { s with
    head := t.head, urgent := t.urgent, headPlace := t.headPlace, station := t.station, lane := t.lane
    quantities := t.quantities, engine := t.engine, vehicle := t.vehicle, live := t.live }

theorem Finishing.startStep_full {o : BeginOccasion} {v : VehicleRecord} {r : VehicleResults} {s u : State}
    (h : Finishing o v r s u) (hl : 4 ≤ s.certs.queue.length) : FinishHeld o v r s (startStep o s) := by
  have eu := h.only
  have certs : u.certs = s.certs := by rw [eu]
  obtain ⟨none, speaks, values⟩ := tryFinish_full (s := u) (by rw [certs]; exact hl)
  have started : startStep o s = (tryFinish u).1 := by
    rw [startStep_none (by rw [h.begin]; exact none), h.begin]
  rw [started]
  generalize (tryFinish u).1 = t at speaks values ⊢
  have et := speaks.only
  have lane : t.lane = { u.certFull.lane with state := .paused } := by rw [et]; rfl
  have engine : t.engine = u.certFull.engine := by rw [et]; rfl
  have vehicle : t.vehicle = u.vehicle := by rw [et]; rfl
  refine ⟨?_, ?_, fun q => ⟨values q, ?_⟩, ?_, ?_⟩
  · rw [lane, eu]
    rfl
  · rw [engine, eu]
    rfl
  · rw [speaks.qty q]
    have qty : (u.certFull.setLane fun l => { l with state := .paused }).qty q = s.qty q := by rw [eu]; rfl
    rw [qty]
  · rw [vehicle, eu]
  · rw [et, eu]
    rfl

/-! ### FINISH completed (R81, R84, R89, R96) -/

theorem watchesOff_side (s : State) (sd : Side) : (watchesOff s).roller sd = (s.roller sd).watchOff := by
  cases sd with
  | left => rfl
  | right => rfl

/-- FINISH begun with a free place in the Certificate Queue (R84, R89, R96). -/
structure FinishDone (v : VehicleRecord) (r : VehicleResults) (s t : State) : Prop where
  lane : t.lane = { s.lane with state := .exit, causes := onlyEstop s.lane.causes }
  engine : t.engine = { EngineState.reset with pendingGuide := t.engine.pendingGuide }
  eval : t.eval = Evaluator.reset
  number : t.certs.number = s.certs.number + 1
  queue : t.certs.queue = s.certs.queue ++ [assemble (s.certs.number + 1) v r s.clock.live s.clock.hold]
  count : t.live.certificates = s.live.certificates + 1
  side : ∀ sd, (t.roller sd).still = true ∧ (t.roller sd).watch = none
  estop : t.rollers.estop = s.rollers.estop
  qty : ∀ q, (t.qty q).batch.values = [] ∧ t.qty q = { s.qty q with batch := (t.qty q).batch }
  vehicle : t.vehicle = some { v with results := some r }
  only : t = { s with
    head := t.head, urgent := t.urgent, headPlace := t.headPlace, station := t.station, lane := t.lane
    quantities := t.quantities, engine := t.engine, rollers := t.rollers, eval := t.eval, vehicle := t.vehicle
    certs := t.certs, live := t.live }

/-- FINISH begun with a free place, up to its exit. -/
theorem Finishing.startStep_room {o : BeginOccasion} {p : PlanStep} {v : VehicleRecord} {r : VehicleResults}
    {s u : State} (h : Finishing o v r s u) (hp : currentStep s = some p) (hk : p.kind = .finish)
    (hl : s.certs.queue.length < 4) :
    ∃ c, Certified { v with results := some r } r u c ∧ startStep o s = enterExit .stepEnd (concluded c) := by
  have eu := h.only
  have certs : u.certs = s.certs := by rw [eu]
  obtain ⟨c, queued, cert⟩ := queueCertificate_room (s := u) (v := { v with results := some r })
    (by rw [certs]; exact hl) (by rw [eu]) rfl
  have begun : beginStep o s = (c, some completed) := by
    rw [h.begin, tryFinish, queued]
  have step : currentStep c = some p := by
    rw [cert.only, eu]
    exact hp
  have ended := endStep_finish (s := c) (by rw [currentKind, step, Option.map_some, hk])
  refine ⟨c, cert, ?_⟩
  rw [startStep_ends (x := completed) (by rw [begun]) (by rw [begun, ended]), begun, ended]

theorem Certified.exit_done {o : BeginOccasion} {v : VehicleRecord} {r : VehicleResults} {s u c : State}
    (h : Finishing o v r s u) (cert : Certified { v with results := some r } r u c) :
    FinishDone v r s (enterExit .stepEnd (concluded c)) := by
  have exit := enterExit_exited .stepEnd (concluded c)
  have done := concluded_concluded c
  generalize concluded c = d at exit done
  generalize enterExit .stepEnd d = t at exit
  have et := exit.only
  have ed := done.only
  have ec := cert.only
  have eu := h.only
  have rollers : c.rollers = s.rollers := by rw [ec, eu]
  have certs : t.certs = c.certs := by rw [et, ed]
  have before : u.certs = s.certs ∧ u.clock = s.clock := by rw [eu]; exact ⟨rfl, rfl⟩
  obtain ⟨beforeCerts, clock⟩ := before
  refine ⟨?_, ?_, ?_, ?_, ?_, ?_, fun sd => ?_, ?_, fun q => ?_, ?_, ?_⟩
  · rw [et, ed, ec, eu]
  · rw [et, ed]
  · rw [et, ed]
  · rw [certs, cert.number, beforeCerts]
  · rw [certs, cert.queue, beforeCerts, clock]
    rfl
  · rw [exit.count, done.count, cert.count, h.count]
  · have off : (d.roller sd).watch = none := by
      have side : d.roller sd = (watchesOff c).roller sd := by rw [ed]; rfl
      rw [side, watchesOff_side]
      rfl
    have stopped := exit.side sd
    exact ⟨stopped.still, stopped.watch.elim id fun same => same.trans off⟩
  · have same : t.rollers.estop = c.rollers.estop := by rw [et, ed]; rfl
    rw [same, rollers]
  · obtain ⟨values, same⟩ := exit.qty q
    refine ⟨values, ?_⟩
    have qty : c.qty q = s.qty q := by rw [ec, eu]; rfl
    rw [same, (done.qty q).2, qty]
  · rw [et, ed, ec, eu]
  · rw [et, ed, ec, eu]

/-- The two guidance messages of a completed FINISH, one after the other (R84, R88). -/
theorem Certified.exit_guided {o : BeginOccasion} {p : PlanStep} {v : VehicleRecord} {r : VehicleResults}
    {s u c : State} (h : Finishing o v r s u) (cert : Certified { v with results := some r } r u c)
    (head : u.head = (announced p o s).head) (urgent : u.urgent = (announced p o s).urgent)
    (place : u.headPlace = (announced p o s).headPlace) (hp : currentStep s = some p) (hv : s.vehicle = some v)
    (hs : ∀ sd, (s.roller sd).state = .stopped) (hb : s.head.tx ≠ .idle) (hq : s.head.queue.length + 2 ≤ 16) :
    let t := enterExit .stepEnd (concluded c)
    t.engine.pendingGuide = none ∧ t.urgent = s.urgent ∧ t.headPlace = s.headPlace ∧
    t.head = { s.head with queue := s.head.queue ++ [stepFrame p o v s, exitFrame s] } := by
  intro t
  obtain ⟨aHead, aUrgent, aPlace⟩ := announced_busy o hp hv hb (by omega)
  have exit : Exited (concluded c) t := enterExit_exited .stepEnd (concluded c)
  have done := concluded_concluded c
  generalize concluded c = d at exit done
  have ed := done.only
  have ec := cert.only
  have eu := h.only
  have dHead : d.head = { s.head with queue := s.head.queue ++ [stepFrame p o v s] } := by
    rw [ed, ec, ← aHead, ← head]
  have stopped : ∀ sd, (d.roller sd).state = .stopped := fun sd => by
    have side : d.roller sd = (watchesOff c).roller sd := by rw [ed]; rfl
    have same : c.roller sd = s.roller sd := by rw [ec, eu]; rfl
    rw [side, watchesOff_side, same]
    exact hs sd
  obtain ⟨guide, tUrgent, tPlace, tHead⟩ := exit.guide stopped (by rw [dHead]; exact hb)
    (by rw [dHead, List.length_append, List.length_singleton]; omega)
  have frame : exitFrame d = exitFrame s := by rw [ed, ec, eu]; rfl
  refine ⟨guide, ?_, ?_, ?_⟩
  · rw [tUrgent, ed, ec, ← aUrgent, ← urgent]
  · rw [tPlace, ed, ec, ← aPlace, ← place]
  · rw [tHead, dHead, frame, List.append_assoc]
    rfl

/-! ### The statement -/

/-- Settles O26: GO_TEST begins the plan, every begin announces its step, and the begin actions of the steps. -/
theorem goTestBeginsThePlan : Obligations.GoTestBeginsThePlan := by
  unfold Obligations.GoTestBeginsThePlan
  refine ⟨exec_goTest_begins, fun o p s hp hs hd => ?_,
    fun p s => ⟨beginActions_spin s, fun hk => beginActions_measuring hk s, beginActions_stop s⟩,
    fun o plan p v s _ hv hplan hp hk hd => ?_⟩
  · refine (beginStep_eq hp hs hd).trans ?_
    rfl
  · intro r attempt t
    obtain ⟨u, finishing, head, urgent, place, -⟩ := beginStep_finish (o := o) hv hplan hp hk hd
    rcases Nat.lt_or_ge s.certs.queue.length 4 with room | full
    · obtain ⟨c, cert, started⟩ := finishing.startStep_room hp hk room
      have done : FinishDone v r s (startStep o s) := started ▸ cert.exit_done finishing
      have guided := cert.exit_guided finishing head urgent place hp hv
      rw [← started] at guided
      exact ⟨done.vehicle,
        fun _ => ⟨done.lane, done.engine, done.eval, done.number, done.queue, done.count, done.side, done.estop,
          done.qty, guided, done.only⟩,
        fun full => absurd room (Nat.not_lt.mpr full)⟩
    · have held : FinishHeld o v r s t := finishing.startStep_full full
      exact ⟨held.vehicle, fun room => absurd room (Nat.not_lt.mpr full),
        fun _ => ⟨held.lane, held.engine, held.qty, held.only⟩⟩

end Sys2Proof.Machine
end

section
/-! Requests about the cadences and the heads' streams (R23, R27, R30, R177 to R179). -/

namespace Sys2Proof.Machine

/-! ### CADENCE_SET (R23, R27) -/

theorem exec_cadenceSet {s : State} {f : Frame} {cb : Byte} {rate : Word16}
    (h : s.asks f (0x09 :: cb :: word16 rate)) : exec .cadenceSet s =
      .next (takeCadenceSet f.src.toNat (cb :: word16 rate) (s.dropFirst .station)) :=
  congrArg Host.Outcome.next (onRequest_asks h takeCadenceSet)

theorem field_rate (cb : Byte) (rate : Word16) : field (cb :: word16 rate) 1 2 = rate.toNat := by
  rw [field, List.drop_succ_cons, List.drop_zero, List.take_of_length_le (word16_length rate).le, readNat_word16]

theorem field_cadence (cb : Byte) (rate : Word16) : field (cb :: word16 rate) 0 1 = cb.toNat := field_one _ 0

theorem cadenceOf_cadenceCode (c : Cadence) : cadenceOf (cadenceCode c) = some c := by cases c <;> rfl

theorem goodRate_iff (c : Cadence) (rate : Nat) : goodRate c rate = true ↔
    (c = .a → 10 ≤ rate ∧ rate ≤ 1000) ∧ (c = .b → 1 ≤ rate ∧ rate ≤ 200) := by
  cases c <;> simp [goodRate, inRange]

theorem takeCadenceSet_busy {src : Nat} {cb : Byte} {rate : Word16} {s : State} (h : s.lane.state ≠ .off) :
    takeCadenceSet src (cb :: word16 rate) s = reply src 0x09 1 [] s := by
  rw [takeCadenceSet, if_neg (not_not_intro (show (cb :: word16 rate).length = 3 from rfl)), if_pos h]
  rfl

theorem takeCadenceSet_unknown {src : Nat} {cb : Byte} {rate : Word16} {s : State} (h : s.lane.state = .off)
    (hc : cadenceOf cb.toNat = none) : takeCadenceSet src (cb :: word16 rate) s = reply src 0x09 3 [2] s := by
  rw [takeCadenceSet, if_neg (not_not_intro (show (cb :: word16 rate).length = 3 from rfl)),
    if_neg (not_not_intro h), field_cadence, hc]
  rfl

theorem takeCadenceSet_known {src : Nat} {cb : Byte} {rate : Word16} {c : Cadence} {s : State}
    (h : s.lane.state = .off) (hc : cadenceOf cb.toNat = some c) : takeCadenceSet src (cb :: word16 rate) s =
      if goodRate c rate.toNat then
        reply src 0x09 0 [] (s.setCad c { s.cad c with rate := rate.toNat, inc := incrementOf rate.toNat })
      else reply src 0x09 3 [2] s := by
  rw [takeCadenceSet, if_neg (not_not_intro (show (cb :: word16 rate).length = 3 from rfl)),
    if_neg (not_not_intro h), field_cadence, hc]
  dsimp only
  rw [field_rate]
  rfl

/-- The increment is the rate × 2³² / 10⁶, rounded half up (R23). -/
theorem incrementOf_eq (rate : Nat) : incrementOf rate = (2 * (rate * 2 ^ 32) + 10 ^ 6) / (2 * 10 ^ 6) := by
  rw [incrementOf]
  omega

@[simp] theorem setCad_cad (s : State) (c : Cadence) : s.setCad c (s.cad c) = s := by cases c <;> rfl

@[simp] theorem dropFirst_station_cad (s : State) (c : Cadence) : (s.dropFirst .station).cad c = s.cad c := by
  cases c <;> rfl

/-- Settles O33: the request is judged by the lane state, the cadence byte and the rate's range, in that order. -/
theorem cadenceSetTaken : Obligations.CadenceSetTaken := by
  unfold Obligations.CadenceSetTaken
  intro f cb rate s h
  rw [exec_cadenceSet h]
  refine ⟨fun busy => congrArg Host.Outcome.next (takeCadenceSet_busy busy), fun off bad => ?_,
    fun c off hcb ha hb => ?_⟩
  · refine congrArg Host.Outcome.next ?_
    have known : ∀ c, cb.toNat = cadenceCode c → ¬ goodRate c rate.toNat = true →
        takeCadenceSet f.src.toNat (cb :: word16 rate) (s.dropFirst .station) =
          reply f.src.toNat 0x09 3 [2] (s.dropFirst .station) :=
      fun c hc hg => (takeCadenceSet_known (s := s.dropFirst .station) off (hc ▸ cadenceOf_cadenceCode c)).trans
        (if_neg hg)
    rcases bad with two | ⟨rfl, range⟩ | ⟨rfl, range⟩
    · exact takeCadenceSet_unknown off (List.getElem?_eq_none two)
    · refine known .a rfl fun hg => ?_
      have := ((goodRate_iff _ _).mp hg).1 rfl
      omega
    · refine known .b rfl fun hg => ?_
      have := ((goodRate_iff _ _).mp hg).2 rfl
      omega
  · have done := (takeCadenceSet_known (src := f.src.toNat) (rate := rate) (s := s.dropFirst .station) off
      (hcb ▸ cadenceOf_cadenceCode c)).trans (if_pos ((goodRate_iff c _).mpr ⟨ha, hb⟩))
    rw [incrementOf_eq, dropFirst_station_cad] at done
    refine ⟨congrArg Host.Outcome.next done, fun hr hi => congrArg Host.Outcome.next (done.trans ?_)⟩
    rw [← hi, ← hr, ← dropFirst_station_cad, setCad_cad]

/-! ### The first-sample flags (R30) -/

theorem foldl_firstFlag_qty (l : List Quantity) {s : State} (h : s.quantities.length = 16) (q : Quantity) :
    (l.foldl (fun t q => if (mapped t q).isSome then t.setQty q { t.qty q with firstSample := true } else t) s).qty q =
      { s.qty q with firstSample := (decide (q ∈ l) && (mapped s q).isSome) || (s.qty q).firstSample } := by
  induction l generalizing s with
  | nil => rfl
  | cons r rest ih =>
    rw [List.foldl_cons]
    split
    next hm =>
      have map : mapped (s.setQty r { s.qty r with firstSample := true }) q = mapped s q := rfl
      rw [ih ((setQty_length _ _ _).trans h), map]
      by_cases e : r = q
      · subst e
        rw [qty_setQty h, hm]
        simp
      · rw [qty_setQty_other s e]
        simp [Ne.symm e]
    next hm =>
      rw [ih h]
      by_cases e : q = r
      · subst e
        simp [hm]
      · simp [e]

/-- STREAM_ON and HEAD_RESTART set the first-sample flag of every mapped quantity (R30). -/
theorem setFirstFlags_qty {s : State} (h : s.quantities.length = 16) (q : Quantity) :
    (setFirstFlags s).qty q = { s.qty q with firstSample := (mapped s q).isSome || (s.qty q).firstSample } := by
  rw [setFirstFlags, foldl_firstFlag_qty _ h, decide_eq_true (mem_allQuantities q), Bool.true_and]

/-! ### The issue of a sync action (R177) -/

/-- The sync actions after which every stream starts anew (R30). -/
def SyncCode.starts (code : SyncCode) : Bool := decide (code = .streamOn ∨ code = .headRestart)

/-- The state in which a sync action's frame is offered: the entry logged, the first-sample flags set (R30, R177). -/
def State.synced (s : State) (code : SyncCode) (source : SyncSource) : State :=
  if code.starts then setFirstFlags { s with syncLog := s.logged code source }
  else { s with syncLog := s.logged code source }

theorem synced_only (s : State) (code : SyncCode) (source : SyncSource) : s.synced code source =
    { s with syncLog := s.logged code source, quantities := (s.synced code source).quantities } := by
  unfold State.synced
  split
  · obtain ⟨qs, e, -⟩ := setFirstFlags_only { s with syncLog := s.logged code source }
    rw [e]
  · rfl

theorem synced_qty {s : State} (h : s.quantities.length = 16) (code : SyncCode) (source : SyncSource) (q : Quantity) :
    (s.synced code source).qty q =
      { s.qty q with firstSample := (code.starts && (mapped s q).isSome) || (s.qty q).firstSample } := by
  unfold State.synced
  cases code.starts with
  | true => exact setFirstFlags_qty (s := { s with syncLog := s.logged code source }) h q
  | false => rfl

theorem issueSync_eq (code : SyncCode) (source : SyncSource) (s : State) : issueSync code source s =
    (offerCounted .head (originate 63 kindSync [BitVec.ofNat 8 (syncCode code)]) (s.synced code source),
      decide (s.syncLog.entries.length < 32)) := by
  unfold issueSync State.synced SyncCode.starts
  rw [logSync_eq]
  cases code <;> rfl

/-- What the issue of a sync action replaces. -/
theorem issueSync_synced (code : SyncCode) (source : SyncSource) (s : State) :
    ∃ x u v l, (issueSync code source s).1 = { s with
        head := x, urgent := u, headPlace := v, live := l, quantities := (s.synced code source).quantities
        syncLog := s.logged code source } ∧
      (s.head.tx ≠ .idle → s.head.queue.length < 16 → x =
        { s.head with queue := s.head.queue ++ [originate 63 kindSync [BitVec.ofNat 8 (syncCode code)]] }) := by
  obtain ⟨x, u, v, l, e, -, hx⟩ := offerCounted_head_room (originate 63 kindSync [BitVec.ofNat 8 (syncCode code)])
    (s.synced code source)
  rw [synced_only] at e hx
  refine ⟨x, u, v, l, ?_, hx⟩
  rw [issueSync_eq, synced_only]
  exact e

/-- The content of a SYNC notice (R177). -/
def syncFields (code : SyncCode) (source : SyncSource) (logged : Bool) (s : State) : List Byte :=
  word32 s.clock.laneTime ++ [BitVec.ofNat 8 (syncCode code), BitVec.ofNat 8 (sourceCode source),
    if logged then 1 else 0, BitVec.ofNat 8 s.syncLog.entries.length, if 16 < s.syncLog.entries.length then 1 else 0]

theorem syncNotice_eq (code : SyncCode) (source : SyncSource) (logged : Bool) (s : State) :
    syncNotice code source logged s = notice 0x0B (syncFields code source logged s) s := by
  unfold syncNotice syncFields
  simp only [flagByte, be8, halfFlag, decide_eq_true_eq, List.append_assoc]
  rfl

/-! ### Sync requests (R178) -/

theorem exec_sync {code : SyncCode} {i : Instr} {f : Frame} {s : State} (hi : syncInstr code = some i)
    (h : s.asks f [0x0A, BitVec.ofNat 8 (syncCode code)]) :
    exec i s = .next (syncRequest code f.src.toNat (s.dropFirst .station)) := by
  cases code with
  | tare => exact nomatch hi
  | zero => cases hi; exact congrArg Host.Outcome.next (onSelected_asks h isSync (oneByte 0x0A 0x01 (syncRequest .zero)))
  | streamOn =>
    cases hi; exact congrArg Host.Outcome.next (onSelected_asks h isSync (oneByte 0x0A 0x02 (syncRequest .streamOn)))
  | streamOff =>
    cases hi; exact congrArg Host.Outcome.next (onSelected_asks h isSync (oneByte 0x0A 0x03 (syncRequest .streamOff)))
  | headRestart =>
    cases hi; exact congrArg Host.Outcome.next (onSelected_asks h isSync (oneByte 0x0A 0x04 (syncRequest .headRestart)))

/-- When a sync request is refused, and how (R178). -/
theorem syncRefusal_eq {code : SyncCode} (ht : code ≠ .tare) (s : State) : syncRefusal code s =
    if code.starts then (if s.lane.state = .off then some statusRefused else none)
    else (if s.vehicle.isSome then some statusBusy else none) := by
  cases code with
  | tare => exact absurd rfl ht
  | zero | streamOff | streamOn | headRestart => rfl

theorem syncRequest_refused {code : SyncCode} {src : Nat} {status : Byte} {s : State}
    (h : syncRefusal code s = some status) : syncRequest code src s = reply src 0x0A status [] s := by
  rw [syncRequest, h]

theorem syncRequest_issued {code : SyncCode} {src : Nat} {s : State} (h : syncRefusal code s = none) :
    syncRequest code src s = syncNotice code .station (decide (s.syncLog.entries.length < 32))
      (reply src 0x0A statusDone [if s.syncLog.entries.length < 32 then 1 else 0] (issueSync code .station s).1) := by
  rw [syncRequest, h]
  simp only [issueSync_eq, flagByte, decide_eq_true_eq]

/-- A sync request taken: the station hears the reply and then the notice, and no more is replaced than its issue does. -/
theorem syncRequest_parts {code : SyncCode} {src : Nat} {s : State} (h : syncRefusal code s = none) :
    ∃ x u v y l, syncRequest code src s = { s with
        head := x, urgent := u, headPlace := v, station := y, live := l
        quantities := (s.synced code .station).quantities, syncLog := s.logged code .station } ∧
      (s.head.tx ≠ .idle → s.head.queue.length < 16 → x =
        { s.head with queue := s.head.queue ++ [originate 63 kindSync [BitVec.ofNat 8 (syncCode code)]] }) ∧
      (s.station.tx ≠ .idle → s.station.queue.length + 2 ≤ 32 → y = { s.station with
        queue := s.station.queue ++
          [originate src kindMreply [0x0A, statusDone, if s.syncLog.entries.length < 32 then 1 else 0],
           originate 62 kindNotice (0x0B :: syncFields code .station (decide (s.syncLog.entries.length < 32))
             { s with syncLog := s.logged code .station })] }) := by
  obtain ⟨x, u, v, l, e, hx⟩ := issueSync_synced code .station s
  rw [syncRequest_issued h, e]
  generalize hu : ({ s with
    head := x, urgent := u, headPlace := v, live := l, quantities := (s.synced code .station).quantities
    syncLog := s.logged code .station } : State) = w
  have station : w.station = s.station := by rw [← hu]
  have fields : syncFields code .station (decide (s.syncLog.entries.length < 32)) w =
      syncFields code .station (decide (s.syncLog.entries.length < 32)) { s with syncLog := s.logged code .station } := by
    rw [← hu]
    rfl
  rw [← fields]
  generalize decide (s.syncLog.entries.length < 32) = logged
  generalize (if s.syncLog.entries.length < 32 then 1 else 0 : Byte) = flag
  obtain ⟨y, n, e1, -⟩ := reply_only src 0x0A statusDone [flag] w
  have heard := fun hb hl => reply_busy_room (s := w) src 0x0A statusDone [flag] hb hl
  generalize reply src 0x0A statusDone [flag] w = w1 at e1 heard ⊢
  obtain ⟨z, m, e2, -⟩ := syncNotice_only code .station logged w1
  refine ⟨x, u, v, z, _, by rw [e2, e1, ← hu], hx, fun hb hl => ?_⟩
  have one := heard (by rw [station]; exact hb) (by rw [station]; omega)
  have two := notice_busy_room (s := w1) 0x0B (syncFields code .station logged w1) (by rw [one]; exact station ▸ hb)
    (by rw [one, station]; simp; omega)
  have same : syncFields code .station logged w1 = syncFields code .station logged w := by rw [e1]; rfl
  rw [← syncNotice_eq, e2, same] at two
  exact two.trans (by rw [one, station]; simp)

/-- Settles O34: the refusals first, and then the parts of a request that is taken. -/
theorem syncRequestsIssued : Obligations.SyncRequestsIssued := by
  unfold Obligations.SyncRequestsIssued
  intro code i f s fits hi h
  obtain ⟨-, -, -, -, -, fits⟩ := fits
  have ht : code ≠ .tare := fun e => nomatch (e ▸ hi : syncInstr .tare = some i)
  have refusal : syncRefusal code (s.dropFirst .station) =
      if code.starts then (if s.lane.state = .off then some statusRefused else none)
      else (if s.vehicle.isSome then some statusBusy else none) := syncRefusal_eq ht _
  have refused := fun status => syncRequest_refused (code := code) (src := f.src.toNat) (status := status)
    (s := s.dropFirst .station)
  rw [exec_sync hi h]
  intro starts
  have hstarts : code.starts = decide starts := rfl
  refine ⟨fun hs hv => ?_, fun hs ho => ?_, fun hv ho => ?_⟩
  · rw [hstarts, decide_eq_false hs, if_neg Bool.false_ne_true, if_pos hv] at refusal
    exact congrArg Host.Outcome.next (refused _ refusal)
  · rw [hstarts, decide_eq_true hs, if_pos rfl, if_pos ho] at refusal
    exact congrArg Host.Outcome.next (refused _ refusal)
  · have taken : syncRefusal code (s.dropFirst .station) = none := by
      rw [refusal, hstarts]
      by_cases hs : starts
      · rw [decide_eq_true hs, if_pos rfl, if_neg (ho hs)]
      · rw [decide_eq_false hs, if_neg Bool.false_ne_true, hv hs]
        rfl
    obtain ⟨x, u, v, y, l, e, hx, hy⟩ := syncRequest_parts (src := f.src.toNat) taken
    rw [e]
    refine ⟨_, rfl, rfl, fun q => synced_qty (s := s.dropFirst .station) fits code .station q, hx, fun hb hl => ?_, rfl⟩
    rw [hy hb hl]
    simp only [syncFields, decide_eq_true_eq]
    rfl

end Sys2Proof.Machine
end

section
/-! The reference step and the due tick issue (R22, R25, R26, R172). -/

namespace Sys2Proof.Machine

/-! ### Rows taken one after another -/

theorem runRows_cons {i : Instr} {s t : State} (h : exec i s = .next t) (rest : List Instr) :
    runRows (i :: rest) s = runRows rest t := by
  rw [runRows, h]

theorem runRows_append (l k : List Instr) (s : State) : runRows (l ++ k) s = runRows k (runRows l s) := by
  induction l generalizing s with
  | nil => rfl
  | cons i rest ih =>
    rw [List.cons_append, runRows, runRows]
    cases exec i s with
    | next t => exact ih t
    | fault r => exact ih s
    | refused r => exact ih s

theorem runRows_ticks (s : State) :
    runRows [.tickIssue .a .clearanceLast, .tickIssue .b .clearanceLast] s = takeTicks s := rfl

theorem runRows_millisecondWork (s : State) : runRows millisecondWork s = takeDueWork s := rfl

theorem runRows_freedPlaces (s : State) : runRows [.certSend, .pendingGuideOffer] s = takeFreedPlaces s := rfl

/-- The rows that wait, taken in order, are what the next reference step takes before it counts (R22, R172). -/
theorem runRows_waitingRows (s : State) : runRows (waitingRows s) s = takeDueEvents s := by
  unfold waitingRows takeDueEvents
  dsimp only
  rw [runRows_append, runRows_freedPlaces]
  congr 1
  cases s.clock.msDue with
  | true =>
    rw [if_pos rfl, if_pos rfl, runRows_append, runRows_ticks, runRows_cons rfl, runRows_millisecondWork]
  | false =>
    rw [if_neg Bool.false_ne_true, if_neg Bool.false_ne_true]
    split
    · rw [runRows_append, runRows_ticks, runRows_millisecondWork]
    · rw [runRows_ticks]

/-! ### With nothing waiting -/

theorem tickEvent_notDue {c : Cadence} {s : State} (h : (s.cad c).carryDue = false) (o : CloseOrder) :
    tickEvent c o s = (s, CloseTrace.nothing) := by
  rw [tickEvent, h, Bool.and_false, if_neg Bool.false_ne_true]

theorem takeTicks_notDue {s : State} (h : ∀ c, (s.cad c).carryDue = false) : takeTicks s = s := by
  rw [takeTicks, tickEvent_notDue (h .a), tickEvent_notDue (h .b)]

/-- A certificate has at least one segment (R167). -/
theorem segments_pos (c : Certificate) : 0 < (segments c).length := by
  rw [segments, List.length_mapIdx, pieces, cut]
  split
  · exact Nat.one_pos
  · exact Nat.succ_pos _

theorem certSendIfRoom_waits {s : State}
    (h : s.certs.due = false ∨ s.certs.queue = [] ∨ 32 ≤ s.station.queue.length) : certSendIfRoom s = s := by
  cases hq : s.certs.queue with
  | nil => simp only [certSendIfRoom, hq]
  | cons c rest =>
    rw [certSendIfRoom_cons hq]
    by_cases send : s.certs.due = true ∧ s.station.queue.length + (segments c).length ≤ 32
    · obtain ⟨due, room⟩ := send
      rcases h with h | h | h
      · exact absurd (h.symm.trans due) Bool.false_ne_true
      · exact nomatch hq.symm.trans h
      · have some := segments_pos c
        omega
    · exact if_neg send

theorem pendingGuideOffered_waits {s : State} (h : s.engine.pendingGuide = none ∨ 16 ≤ s.head.queue.length) :
    pendingGuideOffered s = s := by
  unfold pendingGuideOffered
  split
  · rfl
  next g hg =>
    rcases h with h | h
    · exact nomatch hg.symm.trans h
    · exact if_neg fun room => absurd (of_decide_eq_true room) (Nat.not_lt.mpr h)

/-- With no event and no freed place waiting none of the rows changes anything. -/
theorem takeDueEvents_nothing {s : State} (hc : ∀ c, (s.cad c).carryDue = false) (hms : s.clock.msDue = false)
    (hmicro : s.clock.micro ≠ 0) (hg : s.engine.pendingGuide = none ∨ 16 ≤ s.head.queue.length)
    (hs : s.certs.due = false ∨ s.certs.queue = [] ∨ 32 ≤ s.station.queue.length) : takeDueEvents s = s := by
  rw [takeDueEvents, hms, if_neg Bool.false_ne_true, if_neg hmicro, takeTicks_notDue hc, takeFreedPlaces,
    certSendIfRoom_waits hs, pendingGuideOffered_waits hg]

/-! ### The step (R22, R172) -/

theorem stepCadence_running {c : CadenceState} (h : c.running = true) : stepCadence c =
    { c with acc := BitVec.ofNat 32 ((c.acc.toNat + c.inc) % 2 ^ 32)
             carryDue := c.carryDue || decide (2 ^ 32 ≤ c.acc.toNat + c.inc) } := by
  have wraps : BitVec.ofNat 32 ((c.acc.toNat + c.inc) % 2 ^ 32) = BitVec.ofNat 32 (c.acc.toNat + c.inc) :=
    BitVec.eq_of_toNat_eq (by simp)
  rw [stepCadence, if_pos h, wraps]

theorem stepCadence_stopped {c : CadenceState} (h : c.running = false) : stepCadence c = c := by
  rw [stepCadence, h, if_neg Bool.false_ne_true]

theorem stepClock_eq (c : Clock) : stepClock c =
    { c with micro := if 999 ≤ c.micro then 0 else c.micro + 1, msDue := c.msDue || decide (999 ≤ c.micro) } := by
  unfold stepClock
  by_cases h : 999 ≤ c.micro
  · rw [if_pos (by omega), if_pos h, decide_eq_true h, Bool.or_true]
  · rw [if_neg (by omega), if_neg h, decide_eq_false h, Bool.or_false]

/-- Settles O57: the waiting rows are taken first, and then the accumulators and the clock advance. -/
theorem referenceStepAdvances : Obligations.ReferenceStepAdvances := by
  unfold Obligations.ReferenceStepAdvances
  intro s
  rw [runRows_waitingRows]
  refine ⟨⟨referenceStep s, rfl, fun c h => ?_, fun c h => ?_, stepClock_eq _, rfl⟩, takeDueEvents_nothing⟩
  · cases c with
    | a => exact stepCadence_running h
    | b => exact stepCadence_running h
  · cases c with
    | a => exact stepCadence_stopped h
    | b => exact stepCadence_stopped h

/-! ### Tick issues, whatever their close brings (R25, R26) -/

/-- The next tick issued: its frame is offered, and its cadence has a new open tick. -/
theorem issueTick_only (c : Cadence) (s : State) :
    ∃ x u v l k, issueTick c s =
        { s.setCad c (nextTick (s.cad c) k) with head := x, urgent := u, headPlace := v, live := l } ∧
      x.fifo = s.head.fifo := by
  obtain ⟨x, u, v, e, hx, -⟩ := offer_head_only (tickFrame c ((s.cad c).tick + 1)) (s.setCad c (nextTick (s.cad c) false))
  rw [setCad_head] at hx
  rw [issueTick_eq]
  dsimp only
  rw [e]
  split
  · exact ⟨x, u, v, s.live, false, by cases c <;> rfl, hx.fifo⟩
  · exact ⟨x, u, v, (countSkipped c s).live, true, by cases c <;> rfl, hx.fifo⟩

/-- The state in which the next tick is issued: after the close of the open tick, if there is one (R25). -/
def closedTick (c : Cadence) (o : CloseOrder) (s : State) : State :=
  match (s.cad c).openTick with
  | none => s.atClose c
  | some x => (tickClose c x o (s.atClose c)).1

theorem closedTick_along (c : Cadence) (o : CloseOrder) (s : State) : Along (s.atClose c) (closedTick c o s) := by
  unfold closedTick
  split
  · exact Along.refl _
  · exact tickClose_along _ _ _ _

/-- The state of a due close, as the tick issue reaches it: first the carry is used up, then the open tick. -/
theorem atClose_eq (c : Cadence) (s : State) :
    let s1 := s.setCad c { s.cad c with carryDue := false }
    s1.setCad c { s1.cad c with openTick := none } = s.atClose c := by
  dsimp only
  rw [cad_setCad, setCad_setCad]
  rfl

theorem tickEvent_closes {c : Cadence} {x : OpenTick} {s : State} (h : closesTick s c x) (o : CloseOrder) :
    tickEvent c o s = (issueTick c (tickClose c x o (s.atClose c)).1, (tickClose c x o (s.atClose c)).2) := by
  obtain ⟨hr, hc, ho⟩ := h
  rw [tickEvent, hr, hc, ho, Bool.and_self, if_pos rfl]
  dsimp only
  rw [atClose_eq]

theorem exec_tickIssue_due {c : Cadence} {s : State} (hr : (s.cad c).running = true)
    (hc : (s.cad c).carryDue = true) (o : CloseOrder) :
    exec (.tickIssue c o) s = .next (issueTick c (closedTick c o s)) := by
  cases ho : (s.cad c).openTick with
  | none =>
    have closed : closedTick c o s = s.atClose c := by rw [closedTick, ho]
    rw [exec_tickIssue_first hr hc ho, closed, State.atClose, ← ho]
  | some x =>
    have closed : closedTick c o s = (tickClose c x o (s.atClose c)).1 := by rw [closedTick, ho]
    rw [closed]
    exact congrArg (fun r => Host.Outcome.next r.1) (tickEvent_closes ⟨hr, hc, ho⟩ o)

theorem voidTick_noTick {x : CadenceState} (h : x.openTick = none) : voidTick x = x := by
  rw [voidTick, h]
  split
  · rw [Option.map_none, ← h]
  · rfl

theorem Along.cad {s t : State} (h : Along s t) (c : Cadence) : t.cad c = s.cad c ∨ t.cad c = voidTick (s.cad c) := by
  cases c with
  | a => exact h.cadA
  | b => exact h.cadB

@[simp] theorem atClose_cad (c : Cadence) (s : State) :
    (s.atClose c).cad c = { s.cad c with carryDue := false, openTick := none } := cad_setCad _ _ _

theorem atClose_only (c : Cadence) (s : State) :
    s.atClose c = { s with cadA := (s.atClose c).cadA, cadB := (s.atClose c).cadB } := by cases c <;> rfl

/-- Settles O16: the close leaves the cadence without an open tick, and the issue gives it the next one. -/
theorem tickNumbersAdvance : Obligations.TickNumbersAdvance := by
  unfold Obligations.TickNumbersAdvance
  intro c d o s hr hc hcd
  have along := closedTick_along c o s
  have other : (s.atClose c).cad d = s.cad d := cad_setCad_other s hcd _
  have exec := exec_tickIssue_due hr hc o
  have only := atClose_only c s
  generalize closedTick c o s = u at along exec
  obtain ⟨x, v, w, l, k, e, hx⟩ := issueTick_only c u
  rw [e] at exec
  have own : u.cad c = { s.cad c with carryDue := false, openTick := none } := by
    rw [← atClose_cad]
    exact (along.cad c).elim id fun h => h.trans (voidTick_noTick (by rw [atClose_cad]))
  have cads : ∀ y : CadenceState, ∀ j, State.cad { u.setCad c y with head := x, urgent := v, headPlace := w, live := l } j =
      (u.setCad c y).cad j := fun y j => by cases j <;> rfl
  refine ⟨_, k, exec, ?_, ?_, ?_⟩
  · rw [cads, cad_setCad, own]
    rfl
  · rw [cads, cad_setCad_other u hcd, ← other]
    exact along.cad d
  · have frame : ∀ y, u.setCad c y = { u with cadA := (u.setCad c y).cadA, cadB := (u.setCad c y).cadB } := fun y => by
      cases c <;> rfl
    rw [frame]
    refine ⟨along.time.1.trans ?_, hx.trans (along.head.fifo.trans ?_), along.station.fifo.trans ?_, along.shadow.trans ?_,
      along.latched.1.trans ?_, along.latched.2.trans ?_, along.pending.trans ?_⟩ <;> rw [only]

end Sys2Proof.Machine
end

section
/-! Conversion, and the quantities at a tick close (R31 to R36, R40 to R44). -/

namespace Sys2Proof.Machine

/-! ### Conversion (R31) -/

/-- Between two neighbouring breakpoints the value is interpolated between those two. -/
theorem interpolate_between {x : Int} {l : List (Int × Int)} (h : l.Pairwise fun p q => p.1 < q.1) {i : Nat}
    {p q : Int × Int} (hp : l[i]? = some p) (hq : l[i + 1]? = some q) (hx : p.1 ≤ x) (hxq : x < q.1) :
    interpolate x l = p.2 + ((x - p.1) * (q.2 - p.2)).tdiv (q.1 - p.1) := by
  induction l generalizing i with
  | nil => exact nomatch hp
  | cons a l ih =>
    cases l with
    | nil => exact nomatch hq
    | cons b rest =>
      cases i with
      | zero =>
        obtain rfl : a = p := Option.some.inj hp
        obtain rfl : b = q := Option.some.inj hq
        rw [interpolate, if_pos hxq]
      | succ j =>
        have ordered := (List.pairwise_cons.mp h).2
        have reached : b.1 ≤ p.1 := by
          rcases List.mem_cons.mp (List.mem_of_getElem? (i := j) (l := b :: rest) hp) with rfl | later
          · exact le_refl _
          · exact le_of_lt ((List.pairwise_cons.mp ordered).1 p later)
        rw [interpolate, if_neg (by omega)]
        exact ih ordered hp hq

/-- At the last breakpoint and beyond it the value is that of the last breakpoint. -/
theorem interpolate_last {x : Int} {l : List (Int × Int)} (h : l.Pairwise fun p q => p.1 < q.1) {p : Int × Int}
    (hp : l.getLast? = some p) (hx : p.1 ≤ x) : interpolate x l = p.2 := by
  induction l with
  | nil => exact nomatch hp
  | cons a l ih =>
    cases l with
    | nil =>
      obtain rfl : a = p := Option.some.inj hp
      rfl
    | cons b rest =>
      have ordered := (List.pairwise_cons.mp h).2
      rw [List.getLast?_cons_cons] at hp
      have reached : b.1 ≤ p.1 := by
        rcases List.mem_cons.mp (List.mem_of_getLast? hp) with rfl | later
        · exact le_refl _
        · exact le_of_lt ((List.pairwise_cons.mp ordered).1 p later)
      rw [interpolate, if_neg (by omega)]
      exact ih ordered hp

theorem convert_first {e : CalEntry} {x : Int} {p : Int × Int} (hp : e.points.head? = some p) (hx : x ≤ p.1) :
    convert e x = p.2 := by
  obtain ⟨rest, hl⟩ := List.head?_eq_some_iff.mp hp
  simp only [convert, hl, if_pos hx]

/-- Past the first breakpoint the value is interpolated. -/
theorem convert_past {e : CalEntry} {x : Int} {a : Int × Int} {rest : List (Int × Int)} (hl : e.points = a :: rest)
    (hx : a.1 < x) : convert e x = interpolate x e.points := by
  simp only [convert, hl, if_neg (not_le_of_gt hx)]

theorem convert_between {e : CalEntry} {x : Int} (h : e.points.Pairwise fun p q => p.1 < q.1) {i : Nat}
    {p q : Int × Int} (hp : e.points[i]? = some p) (hq : e.points[i + 1]? = some q) (hx : p.1 ≤ x) (hxq : x < q.1) :
    convert e x = p.2 + ((x - p.1) * (q.2 - p.2)).tdiv (q.1 - p.1) := by
  cases hl : e.points with
  | nil => exact nomatch hl ▸ hp
  | cons a rest =>
    by_cases past : a.1 < x
    · rw [convert_past hl past]
      exact interpolate_between h hp hq hx hxq
    · have first : a = p := by
        rw [hl] at hp h
        rcases List.mem_cons.mp (List.mem_of_getElem? hp) with rfl | later
        · rfl
        · have := (List.pairwise_cons.mp h).1 p later
          omega
      subst first
      have zero : x - a.1 = 0 := by omega
      rw [convert_first (by rw [hl]; rfl) (not_lt.mp past), zero, Int.zero_mul, Int.zero_tdiv, Int.add_zero]

theorem convert_last {e : CalEntry} {x : Int} (h : e.points.Pairwise fun p q => p.1 < q.1) {p : Int × Int}
    (hp : e.points.getLast? = some p) (hx : p.1 ≤ x) : convert e x = p.2 := by
  cases hl : e.points with
  | nil => exact nomatch hl ▸ hp
  | cons a rest =>
    by_cases past : a.1 < x
    · rw [convert_past hl past]
      exact interpolate_last h hp hx
    · have first : a = p := by
        rw [hl] at hp h
        rcases List.mem_cons.mp (List.mem_of_getLast? hp) with rfl | later
        · rfl
        · have := (List.pairwise_cons.mp h).1 p later
          omega
      exact convert_first (by rw [hl, first]; rfl) (first ▸ not_lt.mp past)

/-- A raw value on a breakpoint is converted to the breakpoint's value. -/
theorem convert_breakpoint {e : CalEntry} (h : e.points.Pairwise fun p q => p.1 < q.1) {p : Int × Int}
    (hp : p ∈ e.points) : convert e p.1 = p.2 := by
  obtain ⟨i, hi⟩ := List.mem_iff_getElem?.mp hp
  cases hn : e.points[i + 1]? with
  | none =>
    have last : e.points.getLast? = some p := by
      have := List.getElem?_eq_none_iff.mp hn
      have := (List.getElem?_eq_some_iff.mp hi).1
      rw [List.getLast?_eq_getElem?, ← hi]
      congr 1
      omega
    exact convert_last h last (le_refl _)
  | some q =>
    have next : p.1 < q.1 := by
      obtain ⟨hi1, rfl⟩ := List.getElem?_eq_some_iff.mp hi
      obtain ⟨hi2, rfl⟩ := List.getElem?_eq_some_iff.mp hn
      exact List.pairwise_iff_getElem.mp h i (i + 1) hi1 hi2 (Nat.lt_succ_self i)
    rw [convert_between h hi hn (le_refl _) next, Int.sub_self, Int.zero_mul, Int.zero_tdiv, Int.add_zero]

/-- The product of the interpolation stays below 2.7 × 10¹¹ (R31). -/
theorem interpolation_product {a b : Int} (ha : 0 ≤ a) (ha' : a ≤ 65535) (hb : b.natAbs ≤ 4000000) :
    (a * b).natAbs < 270000000000 := by
  rw [Int.natAbs_mul]
  calc a.natAbs * b.natAbs ≤ 65535 * 4000000 := Nat.mul_le_mul (by omega) hb
    _ < 270000000000 := by norm_num

/-! ### One quantity at a tick close (R34 to R38) -/

theorem conditionAt_eq (o : OpenTick) (x : QuantityState) : conditionAt o x =
    if o.void then .void else if o.skipped then .held else if x.pendingRaw ≠ none then .fresh
    else if x.excused then .excused else .held := by
  unfold conditionAt
  cases x.pendingRaw with
  | none => rfl
  | some r => rfl

/-- What a close leaves of a quantity: its tare, its batch with its phase, and its first-sample flag. -/
theorem closeValues_keeps (m : MapEntry) (e : CalEntry) (cond : Condition) (x : QuantityState) :
    closeValues m e cond x = { x with
      lastRaw := (closeValues m e cond x).lastRaw, lastConv := (closeValues m e cond x).lastConv
      missing := (closeValues m e cond x).missing, stale := (closeValues m e cond x).stale } := by
  cases cond with
  | fresh | excused | void => rfl
  | held => unfold closeValues; dsimp only; split <;> rfl

/-- The last values change with a fresh one only (R36). -/
theorem closeValues_last {cond : Condition} (h : cond ≠ .fresh) (m : MapEntry) (e : CalEntry) (x : QuantityState) :
    (closeValues m e cond x).lastRaw = x.lastRaw ∧ (closeValues m e cond x).lastConv = x.lastConv := by
  cases cond with
  | fresh => exact absurd rfl h
  | excused | void => exact ⟨rfl, rfl⟩
  | held => unfold closeValues; dsimp only; split <;> exact ⟨rfl, rfl⟩

/-- A held close counts one more missing value, and makes the quantity STALE at the hold limit (R35). -/
theorem closeValues_held {m : MapEntry} {x : QuantityState} (h : x.missing < m.holdLimit) (e : CalEntry) :
    closeValues m e .held x =
      { x with missing := x.missing + 1, stale := x.stale || decide (x.missing + 1 = m.holdLimit) } := if_pos h

/-- A close that neither uses a value nor counts a missing one leaves the count and the mark (R34, R35). -/
theorem closeValues_counted {m : MapEntry} {cond : Condition} {x : QuantityState}
    (h : cond = .excused ∨ cond = .void ∨ cond = .held ∧ m.holdLimit ≤ x.missing) (e : CalEntry) :
    closeValues m e cond x = x := by
  rcases h with rfl | rfl | ⟨rfl, h⟩
  · rfl
  · rfl
  · exact if_neg (not_lt_of_ge h)

/-- What a close does for a quantity of its cadence: the record delivered, the quantity's part, its counts, and what the
station hears of it (R34 to R38). -/
structure QuantityClosed (m : MapEntry) (o : OpenTick) (q : Quantity) (s t : State) (d : Delivery) : Prop where
  record : d = record (calOf s m.calibration) (conditionAt o (s.qty q))
    (closeValues m (calOf s m.calibration) (conditionAt o (s.qty q)) (s.qty q))
  only : t = { s with station := t.station, quantities := t.quantities, live := t.live }
  length : t.quantities.length = s.quantities.length
  qty : t.qty q = { closeValues m (calOf s m.calibration) (conditionAt o (s.qty q)) (s.qty q) with
    pendingRaw := none, excused := false, lastCond := (t.qty q).lastCond }
  others : ∀ r, q ≠ r → t.qty r = s.qty r
  counts : t.live.quantities = s.live.quantities.modify (quantityCode q) fun n => { n with
    clamps := n.clamps + (if d.clamp then 1 else 0), holds := n.holds + (if d.cond = .held then 1 else 0) }

/-- The STALE notices of a close go to the station (R37). -/
theorem closeNotices_only (q : Quantity) (now before : Bool) (s : State) :
    ∃ y n, (if now && !before then staleNotice q .stale false s
      else if before && !now then staleNotice q .fresh false s else s) =
        { s with station := y, live := overrunCount s.live .station n } := by
  split
  · obtain ⟨y, n, e, -⟩ := staleNotice_only q .stale false s
    exact ⟨y, n, e⟩
  · split
    · obtain ⟨y, n, e, -⟩ := staleNotice_only q .fresh false s
      exact ⟨y, n, e⟩
    · exact ⟨s.station, s.live.station.txOverrun, rfl⟩

theorem closeQuantity_closed {c : Cadence} {q : Quantity} {m : MapEntry} {s : State} (hl : s.quantities.length = 16)
    (hm : mapped s q = some m) (hc : m.cadence = c) (o : OpenTick) :
    ∃ d, (closeQuantity c o q s).2 = some d ∧ QuantityClosed m o q s (closeQuantity c o q s).1 d := by
  subst hc
  have closed : ∀ y n, ∀ z : QuantityState, ∀ f : QuantityCounts → QuantityCounts, ∀ r,
      State.qty { (s.setQty q z).countQty q f with
        station := y, live := overrunCount ((s.setQty q z).countQty q f).live .station n } r = (s.setQty q z).qty r :=
    fun _ _ _ _ _ => rfl
  unfold closeQuantity
  rw [hm]
  dsimp only
  rw [bne_self_eq_false, if_neg Bool.false_ne_true]
  obtain ⟨y, n, e⟩ := closeNotices_only q
    (closeValues m (calOf s m.calibration) (conditionAt o (s.qty q)) (s.qty q)).stale (s.qty q).stale _
  refine ⟨_, rfl, ?_⟩
  dsimp only
  rw [e]
  refine ⟨rfl, rfl, setQty_length _ _ _, ?_, fun r hr => ?_, ?_⟩
  · rw [closed, qty_setQty hl]
  · rw [closed, qty_setQty_other s hr]
  · simp only [beq_iff_eq]
    rfl

theorem closeQuantity_other {c : Cadence} {q : Quantity} {s : State} (h : ∀ m, mapped s q = some m → m.cadence ≠ c)
    (o : OpenTick) : closeQuantity c o q s = (s, none) := by
  unfold closeQuantity
  cases hm : mapped s q with
  | none => rfl
  | some m => exact if_pos (bne_iff_ne.mpr (h m hm))

/-- Settles O12: the branches of the conversion, and the use of a fresh value at a close. -/
theorem conversionRule : Obligations.ConversionRule := by
  unfold Obligations.ConversionRule
  refine ⟨fun e x hlo hhi _ _ ordered bounds => ⟨fun p hp hx => convert_first hp hx,
    fun p hp hx => convert_last ordered hp hx, fun p hp hx => hx ▸ convert_breakpoint ordered hp,
    fun i p q hp hq hx hxq => ?_⟩, fun c o q m raw s fits hm hc hv hs hr => ?_⟩
  · obtain ⟨hp1, -, hp3, hp4⟩ := bounds p (List.mem_of_getElem? hp)
    obtain ⟨-, -, hq3, hq4⟩ := bounds q (List.mem_of_getElem? hq)
    have width : (q.2 - p.2).natAbs ≤ 4000000 := by omega
    have product := interpolation_product (a := x - p.1) (by omega) (by omega) width
    exact ⟨convert_between ordered hp hq hx hxq, by omega, width, product, product.trans (by norm_num)⟩
  · obtain ⟨-, -, -, -, -, hl⟩ := fits
    obtain ⟨d, -, closed⟩ := closeQuantity_closed hl hm hc o
    have fresh : conditionAt o (s.qty q) = .fresh := by simp [conditionAt, hv, hs, hr]
    rw [closed.qty, fresh]
    exact congrArg (Option.map _) hr

/-! ### Batches (R40 to R44) -/

@[simp] theorem setQty_setQty (s : State) (q : Quantity) (x y : QuantityState) :
    (s.setQty q x).setQty q y = s.setQty q y := by
  simp only [State.setQty, List.set_set]

theorem flushBatch_empty {q : Quantity} {s : State} (h : (s.qty q).batch.values = []) : flushBatch q s = s := by
  rw [flushBatch]
  exact if_pos (List.isEmpty_iff.mpr h)

/-- At a busy station port a batch joins the queue, or is counted as dropped (R42, R44). -/
theorem flushBatch_busy {q : Quantity} {s : State} (h : (s.qty q).batch.values ≠ []) (hb : s.station.tx ≠ .idle) :
    flushBatch q s =
      let emptied := s.setQty q { s.qty q with batch := Batch.empty }
      if s.station.queue.length < 32 then
        { emptied with station := { s.station with queue := s.station.queue ++ [batchFrame q (s.qty q).batch] } }
      else { emptied with live := { s.live with droppedBatches := s.live.droppedBatches + 1 } } := by
  have offered : offer .station (batchFrame q (s.qty q).batch) (s.setQty q { s.qty q with batch := Batch.empty }) =
      if s.station.queue.length < 32 then
        ({ s.setQty q { s.qty q with batch := Batch.empty } with
          station := { s.station with queue := s.station.queue ++ [batchFrame q (s.qty q).batch] } }, true)
      else (s.setQty q { s.qty q with batch := Batch.empty }, false) := offer_station_busy _ hb
  rw [flushBatch]
  dsimp only
  rw [if_neg (fun e => h (List.isEmpty_iff.mp e)), offered]
  split
  · rfl
  · rfl

theorem addToBatch_eq {q : Quantity} {s : State} (hl : s.quantities.length = 16) (x : QuantityState) (tick : Word16)
    (v : Int × Bool) : addToBatch q tick v (s.setQty q x) =
      let b : Batch := if x.batch.values = [] then { firstTick := tick, values := [v] }
        else { x.batch with values := x.batch.values ++ [v] }
      let added := s.setQty q { x with batch := b }
      if batchLevel s ≤ b.values.length then flushBatch q added else added := by
  unfold addToBatch
  rw [qty_setQty hl]
  simp only [List.isEmpty_iff, setQty_setQty]
  rfl

theorem buildBatch_skips {c : Cadence} {q : Quantity} {s : State}
    (h : ∀ m, mapped s q = some m → m.cadence ≠ c ∨ m.disposition = .off) (tick : Word16) :
    buildBatch c tick q s = s := by
  unfold buildBatch
  cases hm : mapped s q with
  | none => rfl
  | some m =>
    refine if_pos ?_
    rw [Bool.or_eq_true, bne_iff_ne, beq_iff_eq]
    exact h m hm

/-- The state with a quantity's decimation phase advanced (R40). -/
def phaseAdvanced (q : Quantity) (m : MapEntry) (s : State) : State :=
  s.setQty q { s.qty q with phase := if m.decimation ≤ (s.qty q).phase then 0 else (s.qty q).phase + 1 }

theorem buildBatch_mapped {c : Cadence} {q : Quantity} {m : MapEntry} {s : State} (hm : mapped s q = some m)
    (hc : m.cadence = c) (hd : m.disposition ≠ .off) (tick : Word16) : buildBatch c tick q s =
      if (s.qty q).phase ≠ 0 then phaseAdvanced q m s
      else match (delivered s q).bind (·.value) with
        | none => flushBatch q (phaseAdvanced q m s)
        | some w => addToBatch q tick (if m.disposition == .raw then ((s.qty q).lastRaw.getD 0, false)
            else (w, (delivered s q).any (·.clamp))) (phaseAdvanced q m s) := by
  have taken : ¬ (m.cadence != c || m.disposition == .off) = true := by
    rw [Bool.or_eq_true, bne_iff_ne, beq_iff_eq, not_or, not_not]
    exact ⟨hc, hd⟩
  unfold buildBatch
  rw [hm]
  dsimp only
  rw [if_neg taken]
  rfl

section
variable {m : MapEntry} {o : OpenTick} {q : Quantity} {s t : State} {d : Delivery}

theorem QuantityClosed.cond (h : QuantityClosed m o q s t d) : d.cond = conditionAt o (s.qty q) :=
  congrArg Delivery.cond h.record

/-- The quantity's part and its record, by the condition of the record. -/
theorem QuantityClosed.byCond (h : QuantityClosed m o q s t d) :
    t.qty q = { closeValues m (calOf s m.calibration) d.cond (s.qty q) with
        pendingRaw := none, excused := false, lastCond := (t.qty q).lastCond } ∧
      d = Machine.record (calOf s m.calibration) d.cond (closeValues m (calOf s m.calibration) d.cond (s.qty q)) := by
  rw [h.cond]
  exact ⟨h.qty, h.record⟩

theorem QuantityClosed.fresh (h : QuantityClosed m o q s t d) (hf : d.cond = .fresh) :
    (t.qty q).lastRaw = (s.qty q).pendingRaw ∧
      (t.qty q).lastConv = (s.qty q).pendingRaw.map (convert (calOf s m.calibration)) ∧ (t.qty q).missing = 0 ∧
      (t.qty q).stale = false := by
  rw [h.byCond.1, hf]
  exact ⟨rfl, rfl, rfl, rfl⟩

theorem QuantityClosed.notFresh (h : QuantityClosed m o q s t d) (hf : d.cond ≠ .fresh) :
    (t.qty q).lastRaw = (s.qty q).lastRaw ∧ (t.qty q).lastConv = (s.qty q).lastConv := by
  rw [h.byCond.1]
  exact closeValues_last hf m _ _

theorem QuantityClosed.held (h : QuantityClosed m o q s t d) (hh : d.cond = .held)
    (lt : (s.qty q).missing < m.holdLimit) : (t.qty q).missing = (s.qty q).missing + 1 ∧
      ((t.qty q).stale = true ↔ (s.qty q).stale = true ∨ (s.qty q).missing + 1 = m.holdLimit) := by
  rw [h.byCond.1, hh, closeValues_held lt]
  exact ⟨rfl, by rw [Bool.or_eq_true, decide_eq_true_iff]⟩

theorem QuantityClosed.counted (h : QuantityClosed m o q s t d)
    (hc : d.cond = .excused ∨ d.cond = .void ∨ d.cond = .held ∧ m.holdLimit ≤ (s.qty q).missing) :
    (t.qty q).missing = (s.qty q).missing ∧ (t.qty q).stale = (s.qty q).stale := by
  rw [h.byCond.1, closeValues_counted hc]
  exact ⟨rfl, rfl⟩

theorem QuantityClosed.keeps (h : QuantityClosed m o q s t d) : (t.qty q).pendingRaw = none ∧
    (t.qty q).excused = false ∧ (t.qty q).tare = (s.qty q).tare ∧ (t.qty q).phase = (s.qty q).phase ∧
    (t.qty q).batch = (s.qty q).batch ∧ (t.qty q).firstSample = (s.qty q).firstSample := by
  rw [h.byCond.1, closeValues_keeps]
  exact ⟨rfl, rfl, rfl, rfl, rfl, rfl⟩

theorem QuantityClosed.stale (h : QuantityClosed m o q s t d) : d.stale = (t.qty q).stale := by
  rw [h.byCond.1]
  exact congrArg Delivery.stale h.byCond.2

theorem QuantityClosed.void (h : QuantityClosed m o q s t d) (hv : d.cond = .void) :
    d.value = none ∧ d.clamp = false := by
  rw [h.byCond.2, hv]
  exact ⟨rfl, rfl⟩

/-- The value delivered: the last converted value less the tare, clamped to the range (R32). -/
theorem QuantityClosed.value (h : QuantityClosed m o q s t d) (hv : d.cond ≠ .void) :
    let e := calOf s m.calibration
    d.value = (t.qty q).lastConv.map (fun u => clampTo e.rangeMin e.rangeMax (u - (t.qty q).tare)) ∧
      d.clamp = (t.qty q).lastConv.any fun u =>
        clampTo e.rangeMin e.rangeMax (u - (t.qty q).tare) != u - (t.qty q).tare := by
  intro e
  have closed : (d.cond == .void) = false := beq_eq_false_iff_ne.mpr hv
  have record := h.byCond.2
  rw [h.byCond.1, record]
  simp only [Machine.record, condition, closed, Bool.false_eq_true, if_false, Option.map_map, Option.any_map]
  exact ⟨rfl, rfl⟩

theorem QuantityClosed.count (h : QuantityClosed m o q s t d) : t.live.quantities[quantityCode q]? =
    (s.live.quantities[quantityCode q]?).map fun n => { n with
      clamps := n.clamps + (if d.clamp then 1 else 0), holds := n.holds + (if d.cond = .held then 1 else 0) } := by
  rw [h.counts, List.getElem?_modify_eq]
  rfl

end

/-- Settles O13: the close by its condition, the flush at a busy port, and the batch builder's work. -/
theorem quantityAtClose : Obligations.QuantityAtClose := by
  unfold Obligations.QuantityAtClose
  refine ⟨fun c o q m s fits _ hm hc => ?_, fun q s _ hb => ⟨flushBatch_empty, fun hv => flushBatch_busy hv hb⟩,
    fun c tick q s fits => ⟨fun h => buildBatch_skips h tick, fun m hm hc hd => ?_⟩⟩
  · obtain ⟨-, -, -, -, -, hl⟩ := fits
    obtain ⟨d, hd, closed⟩ := closeQuantity_closed hl hm hc o
    obtain ⟨raw, excused, tare, phase, batch, first⟩ := closed.keeps
    exact ⟨d, hd, closed.cond.trans (conditionAt_eq o _), closed.fresh, closed.notFresh, closed.held, closed.counted, raw,
      excused, tare, phase, batch, first, closed.stale, closed.void, closed.value, closed.count⟩
  · obtain ⟨-, -, -, -, -, hl⟩ := fits
    have built := buildBatch_mapped hm hc hd tick
    refine ⟨fun hp => built.trans (if_pos hp), fun hp hv => ?_, fun w raw d hp hdel hval hraw => ?_⟩
    · rw [built, if_neg (not_not_intro hp), show (delivered s q).bind (·.value) = none from hv]
      rfl
    · rw [if_neg (not_not_intro hp), hdel, Option.bind_some, hval, hraw] at built
      simp only [Option.any_some, Option.getD_some, beq_iff_eq] at built
      exact built.trans (addToBatch_eq hl _ _ _)

end Sys2Proof.Machine
end

section
/-! The whole set of a tick close, and a quantity that goes STALE at it (R25, R34, R35, R77). -/

namespace Sys2Proof.Machine

/-! ### What the reports of a close set off (R77) -/

/-- What the Lane Controller's answer to a report may replace: the working parts, and of the quantities their batches. -/
structure Answers (s t : State) : Prop where
  within : Within s t
  qty : ∀ q, t.qty q = { s.qty q with batch := (t.qty q).batch }
  length : t.quantities.length = s.quantities.length

theorem Answers.refl (s : State) : Answers s s := ⟨rfl, fun _ => rfl, rfl⟩

theorem Answers.trans {s t u : State} (h : Answers s t) (k : Answers t u) : Answers s u where
  within := h.within.trans k.within
  qty := fun q => (k.qty q).trans (congrArg (fun x : QuantityState => { x with batch := (u.qty q).batch }) (h.qty q))
  length := k.length.trans h.length

theorem Answers.ofQuantities {s t : State} (h : Within s t) (hq : t.quantities = s.quantities) : Answers s t :=
  ⟨h, fun q => by rw [State.qty, State.qty, hq], congrArg List.length hq⟩

theorem setLane_answers (f : LaneControl → LaneControl) (s : State) : Answers s (s.setLane f) :=
  .ofQuantities (setLane_within f s) rfl

theorem suspend_answers (s : State) : Answers s (suspend s) := by
  refine .ofQuantities (suspend_within s) ?_
  rcases suspend_forms s with ⟨e, -⟩ | e | ⟨n, e⟩ <;> rw [e] <;> rfl

theorem laneStopBoth_answers (s : State) : Answers s (laneStopBoth s).1 := by
  refine .ofQuantities (laneStopBoth_within s) ?_
  obtain ⟨x, u, v, y, n, l, r, e, -⟩ := laneStopBoth_only s
  rw [e]
  rfl

theorem notice_quantities (code : Byte) (l : List Byte) (s : State) :
    (notice code l s).quantities = s.quantities := by
  obtain ⟨x, n, e, -⟩ := notice_only code l s
  rw [e]

theorem enterLane_answers (new : LaneState) (o : LaneOccasion) (s : State) : Answers s (enterLane new o id s) := by
  refine ⟨enterLane_within id_speaks new o s, (enterLane_speaks id_speaks new o s).qty, ?_⟩
  obtain ⟨x, qs, n, e, -, hl⟩ := flushBatches_only (s.setLane fun l => { l with state := new })
  have quantities : (enterLane new o id s).quantities = qs := by
    unfold enterLane laneStateNotice
    rw [id_eq, notice_quantities, e]
  rw [quantities, hl]
  rfl

theorem recordCause_answers (add : PauseCauses → PauseCauses) (s : State) : Answers s (recordCause add false s) := by
  have added := setLane_answers (fun l => { l with causes := add l.causes }) s
  have interrupts := ((added.trans (suspend_answers _)).trans (laneStopBoth_answers _)).trans
    (enterLane_answers .paused .pauseCause _)
  unfold recordCause
  cases s.lane.state with
  | testing | pausing => exact interrupts
  | paused | off | idle | manual | entry | halted | exit => exact added

theorem testHeadStale_answers (s : State) : Answers s (testHeadStale s) := by
  unfold testHeadStale
  split
  · split
    · exact Answers.refl s
    · exact setLane_answers _ s
  · split
    · exact recordCause_answers _ s
    · exact Answers.refl s

theorem Answers.mapped {s t : State} (h : Answers s t) (q : Quantity) : mapped t q = mapped s q := by
  rw [h.within]
  rfl

theorem Answers.calOf {s t : State} (h : Answers s t) (i : Nat) : calOf t i = calOf s i := by
  rw [h.within]
  rfl

/-! ### The quantities of a close, one after another (R37) -/

theorem closeAndReport_answers (c : Cadence) (o : OpenTick) (q : Quantity) (s : State) :
    Answers (closeQuantity c o q s).1 (closeAndReport c o q s).1 := by
  rw [closeAndReport_state]
  split
  · exact Answers.refl _
  · exact testHeadStale_answers _

/-- The close of one quantity leaves the others, and what maps them, but for a flush of their batches. -/
theorem closeAndReport_other {c : Cadence} {o : OpenTick} {q r : Quantity} {s : State} (hl : s.quantities.length = 16)
    (hq : r ≠ q) :
    (closeAndReport c o r s).1.qty q = { s.qty q with batch := ((closeAndReport c o r s).1.qty q).batch } ∧
      (closeAndReport c o r s).1.quantities.length = 16 ∧
      mapped (closeAndReport c o r s).1 q = mapped s q ∧ ∀ i, calOf (closeAndReport c o r s).1 i = calOf s i := by
  have answers := closeAndReport_answers c o r s
  have closed : (closeQuantity c o r s).1.qty q = s.qty q ∧ (closeQuantity c o r s).1.quantities.length = 16 ∧
      mapped (closeQuantity c o r s).1 q = mapped s q ∧ ∀ i, calOf (closeQuantity c o r s).1 i = calOf s i := by
    by_cases hm : ∃ m, mapped s r = some m ∧ m.cadence = c
    · obtain ⟨m, hm, hc⟩ := hm
      obtain ⟨d, -, h⟩ := closeQuantity_closed hl hm hc o
      refine ⟨h.others q hq, h.length.trans hl, ?_, fun i => ?_⟩
      · rw [h.only]
        rfl
      · rw [h.only]
        rfl
    · rw [closeQuantity_other (fun m h hc => hm ⟨m, h, hc⟩)]
      exact ⟨rfl, hl, rfl, fun _ => rfl⟩
  obtain ⟨qty, length, map, cal⟩ := closed
  exact ⟨by rw [answers.qty, qty], answers.length.trans length, (answers.mapped q).trans map,
    fun i => (answers.calOf i).trans (cal i)⟩

theorem closeQuantities_others {c : Cadence} {o : OpenTick} {l : List Quantity} {q : Quantity} (hq : q ∉ l) {s : State}
    (hl : s.quantities.length = 16) :
    (closeQuantities c o l s).1.qty q = { s.qty q with batch := ((closeQuantities c o l s).1.qty q).batch } := by
  induction l generalizing s with
  | nil => rfl
  | cons r rest ih =>
    obtain ⟨hr, hrest⟩ := not_or.mp (mt List.mem_cons.mpr hq)
    obtain ⟨qty, length, -⟩ := closeAndReport_other (c := c) (o := o) hl (Ne.symm hr)
    show (closeQuantities c o rest (closeAndReport c o r s).1).1.qty q = _
    rw [ih hrest length, qty]
    rfl

theorem closeValues_batch (m : MapEntry) (e : CalEntry) (cond : Condition) (x : QuantityState) (b : Batch) :
    closeValues m e cond { x with batch := b } = { closeValues m e cond x with batch := b } := by
  cases cond with
  | fresh | excused | void => rfl
  | held => unfold closeValues; dsimp only; split <;> rfl

/-- A mapped quantity after the close of its whole cadence: as its own close left it, but for a flush of its batch. -/
theorem closeQuantities_qty {c : Cadence} {o : OpenTick} {l : List Quantity} (hn : l.Nodup) {q : Quantity} (hq : q ∈ l)
    {m : MapEntry} {s : State} (hl : s.quantities.length = 16) (hm : mapped s q = some m) (hc : m.cadence = c) :
    ∃ w b, (closeQuantities c o l s).1.qty q =
      { closeValues m (calOf s m.calibration) (conditionAt o (s.qty q)) (s.qty q) with
        pendingRaw := none, excused := false, lastCond := w, batch := b } := by
  induction l generalizing s with
  | nil => exact nomatch hq
  | cons r rest ih =>
    obtain ⟨hr, hrest⟩ := List.nodup_cons.mp hn
    have first : (closeQuantities c o (r :: rest) s).1 = (closeQuantities c o rest (closeAndReport c o r s).1).1 := rfl
    rw [first]
    by_cases e : r = q
    · subst e
      obtain ⟨d, -, closed⟩ := closeQuantity_closed hl hm hc o
      have answers := closeAndReport_answers c o r s
      rw [closeQuantities_others hr (answers.length.trans (closed.length.trans hl)), answers.qty, closed.qty]
      exact ⟨_, _, rfl⟩
    · obtain ⟨qty, length, map, cal⟩ := closeAndReport_other (c := c) (o := o) hl e
      obtain ⟨w, b, h⟩ := ih hrest ((List.mem_cons.mp hq).resolve_left (Ne.symm e)) length (map.trans hm)
      rw [h, cal, qty, closeValues_batch]
      exact ⟨w, b, rfl⟩

theorem allQuantities_nodup : allQuantities.Nodup := by decide

@[simp] theorem setLastSet_qty (s : State) (c : Cadence) (x : TickSet) (q : Quantity) :
    (s.setLastSet c x).qty q = s.qty q := by cases c <;> rfl

theorem conditionerClose_qty {c : Cadence} {q : Quantity} {m : MapEntry} {s : State} (hl : s.quantities.length = 16)
    (hm : mapped s q = some m) (hc : m.cadence = c) (o : OpenTick) :
    ∃ w b, (conditionerClose c o s).qty q =
      { closeValues m (calOf s m.calibration) (conditionAt o (s.qty q)) (s.qty q) with
        pendingRaw := none, excused := false, lastCond := w, batch := b } := by
  unfold conditionerClose
  dsimp only
  rw [setLastSet_qty]
  exact closeQuantities_qty allQuantities_nodup (mem_allQuantities q) hl hm hc

/-! ### Rows that name what a close does (R25; log entry 5) -/

theorem whenTrace_happens {c : Cadence} {x : OpenTick} {s : State} (h : closesTick s c x) {o : CloseOrder}
    {happens : CloseTrace → Bool} (hh : happens (tickClose c x o (s.atClose c)).2 = true) :
    whenTrace c o happens s = issueTick c (tickClose c x o (s.atClose c)).1 := by
  rw [whenTrace, tickEvent_closes h]
  exact if_pos hh

theorem mem_staleQuantities {s : State} {q : Quantity} : q ∈ staleQuantities s ↔ (s.qty q).stale = true := by
  simp [staleQuantities, List.mem_filter, mem_allQuantities]

theorem mem_becomeStale {c : Cadence} {x : OpenTick} {s : State} {q : Quantity} :
    q ∈ becomeStale c x s ↔ ((conditionerClose c x s).qty q).stale = true ∧ (s.qty q).stale = false := by
  simp [becomeStale, List.mem_filter, mem_staleQuantities]

@[simp] theorem atClose_qty (s : State) (c : Cadence) (q : Quantity) : (s.atClose c).qty q = s.qty q := by
  cases c <;> rfl

@[simp] theorem atClose_mapped (s : State) (c : Cadence) (q : Quantity) : mapped (s.atClose c) q = mapped s q := by
  cases c <;> rfl

/-- Settles O14: the close is held, so it counts the missing value and reaches the limit. -/
theorem quantityGoesStale : Obligations.QuantityGoesStale := by
  unfold Obligations.QuantityGoesStale
  intro q o m x s fits hm due hvoid hmissing hstale hlimit
  obtain ⟨-, -, -, -, -, hl⟩ := fits
  have held : conditionAt x (s.qty q) = .held := by
    rcases hmissing with h | ⟨h, h'⟩
    · simp [conditionAt, hvoid, h]
    · simp [conditionAt, hvoid, h, h']
  have length : (s.atClose m.cadence).quantities.length = 16 := by rw [atClose_only]; exact hl
  obtain ⟨w, b, closed⟩ := conditionerClose_qty length ((atClose_mapped _ _ _).trans hm) rfl x
  rw [atClose_qty, held, closeValues_held (by omega)] at closed
  have stale : ((conditionerClose m.cadence x (s.atClose m.cadence)).qty q).stale = true := by
    rw [closed]
    simp [hlimit]
  refine ⟨?_, stale, by rw [closed]; exact hlimit⟩
  have cadence : cadenceOfQuantity s q = m.cadence := by rw [cadenceOfQuantity, hm]; rfl
  have reached : (tickClose m.cadence x o (s.atClose m.cadence)).2.stale.contains q = true :=
    List.contains_iff_mem.mpr (mem_becomeStale.mpr ⟨stale, by rw [atClose_qty, hstale]⟩)
  rw [exec, execQuantityStale, cadence]
  exact congrArg Host.Outcome.next (whenTrace_happens due reached)

end Sys2Proof.Machine
end

section
/-! A bank switch applied at its request (R43, R56, R57). -/

namespace Sys2Proof.Machine

/-! ### The STALE conditions ended (R43) -/

theorem clearStale_stale (q r : Quantity) {s : State} (h : r = q ∨ (s.qty r).stale = false) :
    ((clearStale q s).qty r).stale = false := by
  unfold clearStale
  dsimp only
  split
  next hs =>
    obtain ⟨y, n, e, -⟩ := staleNotice_only q .cleared false (s.setQty q { s.qty q with stale := false })
    have same : (staleNotice q .cleared false (s.setQty q { s.qty q with stale := false })).qty r =
        (s.setQty q { s.qty q with stale := false }).qty r := by rw [e]; rfl
    rw [same]
    by_cases hr : q = r
    · subst hr
      have place : quantityCode q < s.quantities.length := by
        refine Nat.lt_of_not_le fun out => ?_
        rw [State.qty, List.getD_eq_default _ _ out] at hs
        exact Bool.false_ne_true hs
      simp [State.qty, State.setQty, List.getD, place]
    · rw [qty_setQty_other s hr]
      exact h.resolve_left (Ne.symm hr)
  next hs => exact h.elim (fun e => (Bool.not_eq_true _).mp (e ▸ hs)) id

theorem foldl_clearStale_stale (l : List Quantity) (r : Quantity) {s : State} (h : r ∈ l ∨ (s.qty r).stale = false) :
    ((l.foldl (fun t q => clearStale q t) s).qty r).stale = false := by
  induction l generalizing s with
  | nil => exact h.resolve_left (List.not_mem_nil)
  | cons q rest ih =>
    refine ih ?_
    rcases h with h | h
    · exact (List.mem_cons.mp h).elim (fun e => .inr (clearStale_stale q r (.inl e))) .inl
    · exact .inr (clearStale_stale q r (.inr h))

/-- After a switch no quantity is STALE (R43). -/
theorem clearStales_stale (s : State) (q : Quantity) : ((clearStales s).qty q).stale = false :=
  foldl_clearStale_stale allQuantities q (.inl (mem_allQuantities q))

/-! ### The switch (R57) -/

/-- The state with the shadow bank copied, the open ticks void, and the tests of held STARTs of this millisecond dropped
(R43, R57; log entry 44). -/
def State.switched (s : State) : State :=
  { s with
    working := s.shadow, banks := switchedBanks s.banks, cadA := voidTick s.cadA, cadB := voidTick s.cadB
    rollers := { s.rollers with sides :=
      { left := forgetTest s.rollers.sides.left, right := forgetTest s.rollers.sides.right } } }

/-- A switch applied leaves of every quantity its emptied batch, and replaces no more than `switched` does and the
station hears. -/
structure SwitchedTo (s t : State) : Prop where
  only : t = { s.switched with station := t.station, quantities := t.quantities, live := t.live }
  qty : ∀ q, (t.qty q).batch.values = [] ∧ t.qty q = { QuantityState.reset with batch := (t.qty q).batch }

/-- What the Conditioner keeps of a quantity at a switch, before its STALE condition is ended (R43). -/
theorem clearQuantity_eq (x : QuantityState) :
    clearQuantity x = { QuantityState.reset with stale := x.stale, batch := x.batch } := rfl

theorem clearedCopy_only (s : State) :
    copyShadow (clearConditioner s) = { s.switched with
        station := (copyShadow (clearConditioner s)).station
        quantities := (copyShadow (clearConditioner s)).quantities
        live := (copyShadow (clearConditioner s)).live } ∧
      ∀ q, ((copyShadow (clearConditioner s)).qty q).batch.values = [] ∧
        (copyShadow (clearConditioner s)).qty q = { QuantityState.reset with
          stale := ((copyShadow (clearConditioner s)).qty q).stale
          batch := ((copyShadow (clearConditioner s)).qty q).batch } := by
  obtain ⟨t, ht, hv, e⟩ := clearConditioner_only s
  have qty : ∀ q, (copyShadow (clearConditioner s)).qty q = clearQuantity (t.qty q) := fun q => by
    rw [e]
    exact getD_map_reset rfl t.quantities _
  refine ⟨?_, fun q => ⟨?_, ?_⟩⟩
  · rw [e, ht.only]
    rfl
  · rw [qty]
    exact hv q
  · rw [qty, clearQuantity_eq]

theorem applySwitch_to {answer : State → State} (h : ∀ s, Speaks s (answer s)) (o : SwitchOccasion) (s : State) :
    SwitchedTo s (applySwitch o answer s) := by
  obtain ⟨only, cleared⟩ := clearedCopy_only s
  unfold applySwitch
  generalize copyShadow (clearConditioner s) = a at only cleared ⊢
  have ended := clearStales_clears a
  have fresh := clearStales_stale a
  generalize clearStales a = b at ended fresh ⊢
  have heard := (h b).trans (appliedNotice_speaks o (answer b))
  generalize appliedNotice o (answer b) = t at heard ⊢
  refine ⟨?_, fun q => ?_⟩
  · rw [heard.only, ended.only, only]
  · obtain ⟨values, qty⟩ := cleared q
    have batch : (b.qty q).batch = (a.qty q).batch := by rw [ended.qty]
    refine ⟨heard.emptied q (by rw [batch, values]), (heard.qty q).trans ?_⟩
    have part : b.qty q = { QuantityState.reset with batch := (b.qty q).batch } := by
      have stale := fresh q
      rw [ended.qty] at stale ⊢
      rw [show (b.qty q).stale = false from stale, qty]
      rfl
    rw [part]

theorem exec_bankSwitchApply {s : State} {f : Frame} (h : s.asks f [0x03, 0x01]) :
    exec .bankSwitchApply s = .next (applyRequest f.src.toNat (s.dropFirst .station)) :=
  congrArg Host.Outcome.next (onSelected_asks h isAction (oneByte 0x03 0x01 applyRequest))

/-- A switch of a bank that passes, asked for with no vehicle open in OFF, IDLE or MANUAL (R56). -/
theorem applyRequest_applies {src : Nat} {s : State} (hp : s.banks.switchPending = false) (hv : s.vehicle = none)
    (hs : s.lane.state = .off ∨ s.lane.state = .idle ∨ s.lane.state = .manual) (hb : validate s.shadow = none) :
    applyRequest src s = applySwitch .request (fun u => reply src 0x03 statusDone (word16 u.banks.generation) u)
      (setLast .passed s) := by
  have allowed : (s.lane.state == .off || s.lane.state == .idle || s.lane.state == .manual) = true := by
    simp only [Bool.or_eq_true, beq_iff_eq, or_assoc]
    exact hs
  have closed : (setLast .passed s).vehicle = none := hv
  simp only [applyRequest, hp, hv, hb, allowed, closed, Option.isSome_none, Bool.false_eq_true, if_false,
    Bool.not_true, Bool.and_false]

/-- Settles O20: the Conditioner cleared, the bank copied, the STALE conditions ended, and the answers. -/
theorem switchAppliedAtOnce : Obligations.SwitchAppliedAtOnce := by
  unfold Obligations.SwitchAppliedAtOnce
  intro f s h hp hv hs hb
  have switched := applySwitch_to (fun u => reply_speaks f.src.toNat 0x03 statusDone (word16 u.banks.generation) u)
    .request (setLast .passed (s.dropFirst .station))
  refine ⟨_, (exec_bankSwitchApply h).trans
    (congrArg Host.Outcome.next (applyRequest_applies (s := s.dropFirst .station) hp hv hs hb)), switched.qty, ?_⟩
  generalize applySwitch _ _ _ = t at switched
  have only := switched.only
  rw [only]
  rfl

end Sys2Proof.Machine
end

section
/-! GO_IDLE, GO_OFF and GO_MANUAL (R24, R40, R45, R67 to R69). -/

namespace Sys2Proof.Machine

/-! ### The sync broadcast (R177) -/

/-- What a sync broadcast issued whole replaces (R30, R177). -/
structure SyncSent (code : SyncCode) (source : SyncSource) (s t : State) : Prop where
  only : t = { s with
    head := t.head, urgent := t.urgent, headPlace := t.headPlace, station := t.station, quantities := t.quantities
    live := t.live, syncLog := s.logged code source }
  qty : s.quantities.length = 16 ∨ code.starts = false → ∀ q, t.qty q = { s.qty q with
    firstSample := (code.starts && (mapped s q).isSome) || (s.qty q).firstSample, batch := (t.qty q).batch }
  emptied : (∀ q, (s.qty q).batch.values = []) → code.starts = false → ∀ q, (t.qty q).batch.values = []
  head : s.head.tx ≠ .idle → s.head.queue.length < 16 → t.head =
    { s.head with queue := s.head.queue ++ [originate 63 kindSync [BitVec.ofNat 8 (syncCode code)]] }

theorem syncBroadcast_sent (code : SyncCode) (source : SyncSource) (s : State) :
    SyncSent code source s (syncBroadcast code source s) := by
  obtain ⟨x, u, v, l, e, hx⟩ := issueSync_synced code source s
  have heard := syncNotice_speaks code source (issueSync code source s).2 (issueSync code source s).1
  unfold syncBroadcast
  generalize syncNotice code source (issueSync code source s).2 (issueSync code source s).1 = t at heard ⊢
  rw [e] at heard
  have only := heard.only
  have plain : code.starts = false → s.synced code source = { s with syncLog := s.logged code source } := fun h => by
    rw [State.synced, h, if_neg Bool.false_ne_true]
  refine ⟨by rw [only], fun h q => (heard.qty q).trans ?_, fun values h q => ?_, fun hb hl => ?_⟩
  · have synced : (s.synced code source).qty q = { s.qty q with
        firstSample := (code.starts && (mapped s q).isSome) || (s.qty q).firstSample } := by
      rcases h with h | h
      · exact synced_qty h code source q
      · rw [plain h, h]
        rfl
    exact congrArg (fun y : QuantityState => { y with batch := (t.qty q).batch }) synced
  · refine heard.emptied q ?_
    show ((s.synced code source).qty q).batch.values = []
    rw [plain h]
    exact values q
  · rw [only, ← hx hb hl]

/-! ### GO_IDLE (R67) -/

theorem exec_goIdle {s : State} {f : Frame} (h : s.asks f [0x05, 0x01]) :
    exec .goIdle s = .next (goIdle f.src.toNat (s.dropFirst .station)) :=
  congrArg Host.Outcome.next (onSelected_asks h isGo (oneByte 0x05 0x01 goIdle))

theorem exec_goOff {s : State} {f : Frame} (h : s.asks f [0x05, 0x02]) :
    exec .goOff s = .next (goOff f.src.toNat (s.dropFirst .station)) :=
  congrArg Host.Outcome.next (onSelected_asks h isGo (oneByte 0x05 0x02 goOff))

theorem exec_goManual {s : State} {f : Frame} (h : s.asks f [0x05, 0x03]) :
    exec .goManual s = .next (goManual f.src.toNat (s.dropFirst .station)) :=
  congrArg Host.Outcome.next (onSelected_asks h isGo (oneByte 0x05 0x03 goManual))

theorem map_quantities_qty {f : QuantityState → QuantityState} (hf : f QuantityState.reset = QuantityState.reset)
    {s t : State} (h : t.quantities = s.quantities.map f) (q : Quantity) : t.qty q = f (s.qty q) := by
  rw [State.qty, h]
  exact getD_map_reset hf _ _

theorem goIdle_taken {src : Nat} {s : State} (hv : s.banks.valid = true) (hs : s.lane.state = .off)
    (he : s.rollers.estop = false) (hx : s.lane.exitWait = false) : goIdle src s =
      enterLane .idle (.go .idle) (goDone src) (syncBroadcast .streamOn .sequence (startCadences s)) := by
  simp [goIdle, hv, hs, he, hx]

/-- Settles O23: the cadences start, STREAM_ON is broadcast, and the lane is entered. -/
theorem goIdleStartsTheLane : Obligations.GoIdleStartsTheLane := by
  unfold Obligations.GoIdleStartsTheLane
  intro f s fits h hv hs he hx
  obtain ⟨-, -, -, -, -, hl⟩ := fits
  refine ⟨_, (exec_goIdle h).trans
    (congrArg Host.Outcome.next (goIdle_taken (s := s.dropFirst .station) hv hs he hx)), ?_⟩
  have started := map_quantities_qty (f := fun x => { x with phase := 0 }) rfl
    (s := s) (t := startCadences (s.dropFirst .station)) rfl
  have length : (startCadences (s.dropFirst .station)).quantities.length = 16 := (List.length_map _).trans hl
  have sent := syncBroadcast_sent .streamOn .sequence (startCadences (s.dropFirst .station))
  generalize syncBroadcast .streamOn .sequence (startCadences (s.dropFirst .station)) = b at sent ⊢
  have entered := enterLane_speaks (goDone_speaks f.src.toNat) .idle (.go .idle) b
  have values := enterLane_values (goDone f.src.toNat) .idle (.go .idle) b
  generalize enterLane .idle (.go .idle) (goDone f.src.toNat) b = t at entered values ⊢
  have eb := sent.only
  have et := entered.only
  have head : t.head = b.head := by rw [et]; rfl
  refine ⟨by rw [et, eb]; rfl, fun c => ?_, fun q => ⟨values q, (entered.qty q).trans ?_⟩, by rw [et, eb]; rfl,
    fun hb hq => ?_, ?_⟩
  · rw [et, eb]
    cases c with
    | a => rfl
    | b => rfl
  · have sentQty := sent.qty (.inl length) q
    rw [started] at sentQty
    exact congrArg (fun y : QuantityState => { y with batch := (t.qty q).batch }) sentQty
  · rw [head]
    exact sent.head hb hq
  · rw [et, eb]
    rfl

/-! ### GO_OFF (R68) -/

theorem laneStop_stopped {sd : Side} {s : State} (h : (s.roller sd).state = .stopped) : (laneStop sd s).1 = s := by
  simp only [laneStop, h]

/-- The stop requests of both sides leave a side that is STOPPED as it is (R112). -/
theorem laneStopBoth_side {s : State} {sd : Side} (h : (s.roller sd).state = .stopped) :
    (laneStopBoth s).1.roller sd = s.roller sd := by
  show (laneStop .right (laneStop .left s).1).1.roller sd = _
  cases sd with
  | left =>
    rw [laneStop_stopped h]
    obtain ⟨x, u, v, y, n, r, e, -⟩ := laneStop_only .right s
    rw [e]
    rfl
  | right => rw [laneStop_stopped (by rw [laneStop_other]; exact h), laneStop_other]

theorem goOff_taken {src : Nat} {s : State} (hs : s.lane.state = .idle ∨ s.lane.state = .manual)
    (hv : s.vehicle = none) (hx : s.lane.exitWait = false) : goOff src s =
      stopCadences (syncBroadcast .streamOff .sequence
        (enterLane .off (.go .off) (goDone src) (laneStopBoth s).1)) := by
  have taken : ((s.lane.state == .idle || s.lane.state == .manual) && s.vehicle.isNone && !s.lane.exitWait) = true := by
    rw [hv, hx, Bool.not_false, Option.isNone_none, Bool.and_true, Bool.and_true, Bool.or_eq_true, beq_iff_eq, beq_iff_eq]
    exact hs
  rw [goOff, if_pos taken]

theorem goManual_taken {src : Nat} {s : State} (hs : s.lane.state = .idle) (hv : s.vehicle = none)
    (hx : s.lane.exitWait = false) : goManual src s = enterLane .manual (.go .manual) (goDone src) s := by
  simp [goManual, hs, hv, hx]

/-- GO_OFF: the sides stopped, the lane entered, STREAM_OFF broadcast, and the cadences stopped (R24, R45, R68). -/
theorem goOff_parts (src : Nat) {s : State} (hs : s.lane.state = .idle ∨ s.lane.state = .manual)
    (hv : s.vehicle = none) (hx : s.lane.exitWait = false) :
    ∃ a b c, Answers s a ∧ (∀ sd, StoppedFrom (s.roller sd) (a.roller sd) ∧
        ((s.roller sd).state = .stopped → a.roller sd = s.roller sd)) ∧
      a = { s with head := a.head, urgent := a.urgent, headPlace := a.headPlace, station := a.station
                   rollers := { s.rollers with sides := a.rollers.sides }, live := a.live } ∧
      Speaks (a.setLane fun l => { l with state := .off }) b ∧ (∀ q, (b.qty q).batch.values = []) ∧
      SyncSent .streamOff .sequence b c ∧ goOff src s = stopCadences c := by
  refine ⟨_, _, _, laneStopBoth_answers s, fun sd => ⟨laneStopBoth_roller s sd, laneStopBoth_side⟩, ?_,
    enterLane_speaks (goDone_speaks src) .off (.go .off) _, enterLane_values (goDone src) .off (.go .off) _,
    syncBroadcast_sent .streamOff .sequence _, goOff_taken hs hv hx⟩
  obtain ⟨x, u, v, y, n, l, r, e, -⟩ := laneStopBoth_only s
  rw [e]
  rfl

/-- Settles O24: the parts of GO_OFF in turn, and the entry of MANUAL. -/
theorem goOffAndGoManual : Obligations.GoOffAndGoManual := by
  unfold Obligations.GoOffAndGoManual
  refine ⟨fun f s h hs hv hx => ?_, fun f s h hs hv hx => ?_⟩
  · obtain ⟨a, b, c, stops, sides, ea, entered, values, sent, e⟩ :=
      goOff_parts f.src.toNat (s := s.dropFirst .station) hs hv hx
    have run : exec .goOff s = .next (stopCadences c) := (exec_goOff h).trans (congrArg Host.Outcome.next e)
    have eb := entered.only
    have ec := sent.only
    have off := map_quantities_qty (f := fun x => { x with pendingRaw := none, excused := false }) rfl
      (s := c) (t := stopCadences c) rfl
    have roller : ∀ sd, (stopCadences c).roller sd = a.roller sd := fun sd => by
      show c.roller sd = _
      rw [ec, eb]
      rfl
    refine ⟨_, run, ?_, fun k => ?_, fun q => ?_, fun sd => ?_, ?_, ?_, ?_⟩
    · show c.lane = _
      rw [ec, eb, ea]
      rfl
    · have cad : c.cad k = s.cad k := by
        rw [ec, eb, ea]
        cases k <;> rfl
      rw [← cad]
      cases k with
      | a => rfl
      | b => rfl
    · have emptied := sent.emptied values rfl q
      have qty : c.qty q = { s.qty q with batch := (c.qty q).batch } := by
        refine (sent.qty (.inr rfl) q).trans ?_
        rw [entered.qty]
        exact congrArg (fun y : QuantityState => { y with batch := (c.qty q).batch }) (stops.qty q)
      rw [off]
      exact ⟨emptied, congrArg (fun y : QuantityState => { y with
        pendingRaw := none, excused := false, batch := (c.qty q).batch }) qty⟩
    · rw [roller]
      obtain ⟨stopped, same⟩ := sides sd
      exact ⟨stopped.still, same⟩
    · show c.rollers.estop = _
      rw [ec, eb, ea]
      rfl
    · show c.syncLog = _
      rw [ec, eb, ea]
      rfl
    · unfold stopCadences
      rw [ec, eb, ea]
      rfl
  · refine ⟨_, (exec_goManual h).trans
      (congrArg Host.Outcome.next (goManual_taken (s := s.dropFirst .station) hs hv hx)), ?_⟩
    have entered := enterLane_speaks (goDone_speaks f.src.toNat) .manual (.go .manual) (s.dropFirst .station)
    have values := enterLane_values (goDone f.src.toNat) .manual (.go .manual) (s.dropFirst .station)
    generalize enterLane .manual (.go .manual) (goDone f.src.toNat) (s.dropFirst .station) = t at entered values ⊢
    have et := entered.only
    refine ⟨by rw [et]; rfl, fun q => ⟨values q, entered.qty q⟩, ?_⟩
    rw [et]
    rfl

end Sys2Proof.Machine
end

section
/-! The entry of a vehicle (R33, R70, R72, R103, R148). -/

namespace Sys2Proof.Machine

/-! ### The tares (R33) -/

/-- The tare that a vehicle's entry takes for a quantity: its last converted value, when it is mapped, tareable and not
STALE (R33). -/
def tareTaken (s : State) (q : Quantity) : Option Int :=
  (mapped s q).bind fun m => if m.tareable && !(s.qty q).stale then (s.qty q).lastConv else none

/-- The tare of one quantity taken, or its notice (R33). -/
structure TareTaken (q : Quantity) (s t : State) : Prop where
  only : t = { s with station := t.station, quantities := t.quantities, live := t.live }
  length : t.quantities.length = s.quantities.length
  others : ∀ r, q ≠ r → t.qty r = s.qty r
  own : t.qty q = { s.qty q with tare := (tareTaken s q).getD (s.qty q).tare }

theorem TareTaken.refl {q : Quantity} {s : State} (h : tareTaken s q = none) : TareTaken q s s :=
  ⟨rfl, rfl, fun _ _ => rfl, by rw [h]; rfl⟩

theorem staleNotice_tareTaken {q : Quantity} {s : State} (h : tareTaken s q = none) (c : StaleCondition) (b : Bool) :
    TareTaken q s (staleNotice q c b s) := by
  obtain ⟨y, n, e, -⟩ := staleNotice_only q c b s
  rw [e]
  exact ⟨rfl, rfl, fun _ _ => rfl, by rw [h]; rfl⟩

theorem tareQuantity_taken (q : Quantity) {s : State} (hl : s.quantities.length = 16) :
    TareTaken q s (tareQuantity q s) := by
  unfold tareQuantity
  split
  next hm => exact .refl (by rw [tareTaken, hm]; rfl)
  next m hm =>
    split
    next ht =>
      have off : m.tareable = false := (Bool.not_eq_true' _).mp ht
      exact .refl (by rw [tareTaken, hm, Option.bind_some, off]; rfl)
    next ht =>
      have on : m.tareable = true := by simpa using ht
      dsimp only
      split
      next hu => exact staleNotice_tareTaken (by rw [tareTaken, hm, Option.bind_some, hu]; split <;> rfl) _ _
      next u hu =>
        split
        next hs => exact staleNotice_tareTaken (by rw [tareTaken, hm, Option.bind_some, hs, Bool.not_true, Bool.and_false]; rfl) _ _
        next hs =>
          have taken : tareTaken s q = some u := by
            rw [tareTaken, hm, Option.bind_some, on, (Bool.not_eq_true _).mp hs]
            exact hu
          exact ⟨rfl, setQty_length _ _ _, fun r hr => qty_setQty_other s hr _, by rw [qty_setQty hl, taken]; rfl⟩

/-- What the tares of a list of quantities replace (R33). -/
structure TaresTaken (l : List Quantity) (s t : State) : Prop where
  only : t = { s with station := t.station, quantities := t.quantities, live := t.live }
  qty : ∀ q, t.qty q = { s.qty q with
    tare := if q ∈ l then (tareTaken s q).getD (s.qty q).tare else (s.qty q).tare }

theorem TareTaken.tareTaken {q r : Quantity} {s t : State} (h : TareTaken q s t) (hr : q ≠ r) :
    tareTaken t r = tareTaken s r := by
  have map : mapped t r = mapped s r := by rw [h.only]; rfl
  rw [Machine.tareTaken, Machine.tareTaken, map, h.others r hr]

theorem foldl_tareQuantity {l : List Quantity} (hn : l.Nodup) {s : State} (hl : s.quantities.length = 16) :
    TaresTaken l s (l.foldl (fun t q => tareQuantity q t) s) := by
  induction l generalizing s with
  | nil => exact ⟨rfl, fun q => by simp⟩
  | cons q rest ih =>
    obtain ⟨hq, hrest⟩ := List.nodup_cons.mp hn
    have first := tareQuantity_taken q hl
    have later := ih hrest (first.length.trans hl)
    rw [List.foldl_cons]
    refine ⟨by rw [later.only, first.only], fun r => ?_⟩
    rw [later.qty]
    by_cases e : q = r
    · subst e
      rw [if_neg hq, if_pos List.mem_cons_self, first.own]
    · have same : (r ∈ q :: rest) = (r ∈ rest) := propext (List.mem_cons.trans (or_iff_right (Ne.symm e)))
      rw [first.tareTaken e, first.others r e]
      simp only [same]

/-- Every tareable quantity has its tare taken, or keeps it (R33). -/
theorem takeTare_taken {s : State} (hl : s.quantities.length = 16) : TaresTaken allQuantities s (takeTare s) :=
  foldl_tareQuantity allQuantities_nodup hl

theorem TaresTaken.tare {s t : State} (h : TaresTaken allQuantities s t) (q : Quantity) :
    t.qty q = { s.qty q with tare := (tareTaken s q).getD (s.qty q).tare } := by
  rw [h.qty, if_pos (mem_allQuantities q)]

/-! ### GO_ENTRY and GO_ENTRY_TO_TEST (R70, R72) -/

theorem logTare_speaks (s : State) : Speaks { s with syncLog := s.logged .tare .sequence } (logTare s) := by
  unfold logTare
  rw [logSync_eq]
  exact syncNotice_speaks _ _ _ _

theorem plateOn_eq (s : State) : plateOn s = { s with plate := { s.plate with
    detection := if value s .plateOccupied = some 0 then .clear else .waitClear } } := by
  simp only [plateOn, beq_iff_eq]

/-- The guidance "drive on" offered at a vehicle's entry (R70, R102). -/
def entryGuide : GuideMessage := { message := 250, axle := 0, fields := none }

/-- What a vehicle's entry replaces (R33, R70, R148). -/
structure VehicleEntered (s t : State) : Prop where
  lane : t.lane = { s.lane with state := .entry }
  qty : ∀ q, (t.qty q).batch.values = [] ∧
    t.qty q = { s.qty q with tare := (tareTaken s q).getD (s.qty q).tare, batch := (t.qty q).batch }
  plate : t.plate = { s.plate with detection := if value s .plateOccupied = some 0 then .clear else .waitClear }
  log : t.syncLog = s.logged .tare .sequence
  engine : t.engine = { s.engine with pendingGuide := t.engine.pendingGuide }
  room : s.head.tx ≠ .idle → s.head.queue.length < 16 → t.engine.pendingGuide = none ∧
    t.head = { s.head with queue := s.head.queue ++ [originate ((displayNode s).getD 0) kindGuide [250, 0, 0]] }
  full : s.head.tx ≠ .idle → 16 ≤ s.head.queue.length → t.head = s.head ∧ t.engine.pendingGuide = some entryGuide
  only : t = { s with head := t.head, urgent := t.urgent, headPlace := t.headPlace, station := t.station, lane := t.lane
                      quantities := t.quantities, plate := t.plate, engine := t.engine, syncLog := t.syncLog
                      live := t.live }

theorem enterVehicle_entered (g : GoRequest) (src : Nat) {s : State} (hl : s.quantities.length = 16) :
    VehicleEntered s (enterVehicle g src s) := by
  have tares := takeTare_taken hl
  unfold enterVehicle
  generalize takeTare s = a at tares ⊢
  have logged := logTare_speaks a
  generalize logTare a = b at logged ⊢
  rw [plateOn_eq]
  have ea := tares.only
  have eb := logged.only
  have detection : value b .plateOccupied = value s .plateOccupied := by rw [eb, ea]; rfl
  rw [detection]
  generalize hc : ({ b with plate := { b.plate with
    detection := if value s .plateOccupied = some 0 then .clear else .waitClear } } : State) = c
  have head : c.head = s.head := by rw [← hc, eb, ea]
  have frame : guideFrame entryGuide c = originate ((displayNode s).getD 0) kindGuide [250, 0, 0] := by
    have display : displayNode c = displayNode s := by rw [← hc, eb, ea]; rfl
    rw [guideFrame, display]
    rfl
  have guided := fun hb => offerGuide_busy (s := c) entryGuide hb
  rw [head, frame] at guided
  obtain ⟨x, u, v, m, ed, -⟩ := offerGuide_only entryGuide c
  show VehicleEntered s (enterLane .entry (.go g) (goDone src) (offerGuide entryGuide c))
  generalize offerGuide entryGuide c = d at guided ed ⊢
  have entered := enterLane_speaks (goDone_speaks src) .entry (.go g) d
  have values := enterLane_values (goDone src) .entry (.go g) d
  generalize enterLane .entry (.go g) (goDone src) d = t at entered values ⊢
  have et := entered.only
  have thead : t.head = d.head := by rw [et]; rfl
  have tengine : t.engine = d.engine := by rw [et]; rfl
  refine ⟨?_, fun q => ⟨values q, ?_⟩, ?_, ?_, ?_, fun hb hq => ?_, fun hb hq => ?_, ?_⟩
  · rw [et, ed, ← hc, eb, ea]
    rfl
  · have dq : d.qty q = b.qty q := by rw [ed, ← hc]; rfl
    rw [entered.qty]
    show { d.qty q with batch := (t.qty q).batch } = _
    rw [dq, logged.qty]
    exact congrArg (fun y : QuantityState => { y with batch := (t.qty q).batch }) (tares.tare q)
  · rw [et, ed, ← hc, eb, ea]
    rfl
  · rw [et, ed, ← hc, eb, ea]
    rfl
  · rw [et, ed, ← hc, eb, ea]
    rfl
  · rw [thead, tengine, guided hb, if_pos hq]
    exact ⟨rfl, rfl⟩
  · rw [thead, tengine, guided hb, if_neg (Nat.not_lt.mpr hq)]
    exact ⟨rfl, rfl⟩
  · rw [et, ed, ← hc, eb, ea]
    rfl

/-- A vehicle's entry by either request: GO_ENTRY_TO_TEST arms the automatic passage first (R70, R72). -/
theorem exec_entry {toTest : Bool} {f : Frame} {s : State} (h : s.asks f [0x05, if toTest then 0x06 else 0x04])
    (hs : s.lane.state = .idle) (hv : s.vehicle.isSome = true) (hx : s.lane.exitWait = false) :
    ∃ g, exec (if toTest then .goEntryToTest else .goEntry) s = .next (enterVehicle g f.src.toNat
      ((s.dropFirst .station).setLane fun l => { l with autoTest := if toTest then .armed else l.autoTest })) := by
  have taken : entryTaken (s.dropFirst .station) = true := by
    show (s.lane.state == .idle && s.vehicle.isSome && !s.lane.exitWait) = true
    rw [hs, hv, hx]
    rfl
  cases toTest with
  | false =>
    exact ⟨_, (congrArg Host.Outcome.next (onSelected_asks h isGo (oneByte 0x05 0x04 goEntry))).trans
      (congrArg Host.Outcome.next (if_pos taken))⟩
  | true =>
    exact ⟨_, (congrArg Host.Outcome.next (onSelected_asks h isGo (oneByte 0x05 0x06 goEntryToTest))).trans
      (congrArg Host.Outcome.next (if_pos taken))⟩

/-- The first part of O25: what an entry makes of the tares, the plate, the log and the guidance. -/
theorem exec_entry_takes (toTest : Bool) (f : Frame) (s : State) (fits : logsFit s)
    (h : s.asks f [0x05, if toTest then 0x06 else 0x04]) (hs : s.lane.state = .idle) (hv : s.vehicle.isSome = true)
    (hx : s.lane.exitWait = false) :
    ∃ t, exec (if toTest then .goEntryToTest else .goEntry) s = .next t ∧
      VehicleEntered ((s.dropFirst .station).setLane fun l =>
        { l with autoTest := if toTest then .armed else l.autoTest }) t := by
  obtain ⟨-, -, -, -, -, hl⟩ := fits
  obtain ⟨g, run⟩ := exec_entry h hs hv hx
  exact ⟨_, run, enterVehicle_entered g f.src.toNat hl⟩

theorem tareTaken_fresh {s : State} {q : Quantity} {m : MapEntry} {u : Int} (hm : mapped s q = some m)
    (ht : m.tareable = true) (hu : (s.qty q).lastConv = some u) (hs : (s.qty q).stale = false) :
    tareTaken s q = some u := by
  rw [tareTaken, hm, Option.bind_some, ht, hs]
  exact hu

theorem tareTaken_none {s : State} {q : Quantity} (h : mapped s q = none ∨ (∃ m, mapped s q = some m ∧ m.tareable = false) ∨
    (s.qty q).lastConv = none ∨ (s.qty q).stale = true) : tareTaken s q = none := by
  cases hm : mapped s q with
  | none => rw [tareTaken, hm]; rfl
  | some m =>
    rw [tareTaken, hm, Option.bind_some]
    rcases h with h | ⟨m', h, ht⟩ | h | h
    · exact nomatch hm.symm.trans h
    · obtain rfl : m = m' := Option.some.inj (hm.symm.trans h)
      rw [ht]
      rfl
    · rw [h]
      split <;> rfl
    · rw [h, Bool.not_true, Bool.and_false]
      rfl

/-! ### The consumers of a close (log entry 4) -/

theorem clearance_stays {s : State} (h : s.lane.state ≠ .exit) : clearance s = s := by
  rw [clearance, beq_eq_false_iff_ne.mpr h, Bool.false_and, Bool.false_and]
  exact if_neg Bool.false_ne_true

theorem weighClose_stays {s : State} (h : s.eval.activity ≠ .settling) : weighClose s = (s, false) := by
  rw [weighClose, beq_eq_false_iff_ne.mpr h]
  exact if_neg Bool.false_ne_true

/-- The lane empty at a close is not looked at before the consumers, outside EXIT (R84). -/
theorem consumers_first (o : CloseOrder) {s : State} (h : s.lane.state ≠ .exit) :
    (if o == .clearanceFirst then clearance s else s) = s := by
  rw [clearance_stays h, ite_self]

/-- The automatic passage at a close, the other consumers having taken the set (R72). -/
def passed (c : Cadence) (s : State) : State :=
  match c with
  | .a => autoPassage .a false (consumersA s).1
  | .b => autoPassage .b (consumersB s).2.2 (consumersB s).1

/-- What the consumers of a close bring to the rows, the STALE quantities apart. -/
def consumersTrace (c : Cadence) (s : State) : CloseTrace :=
  match c with
  | .a => (consumersA s).2
  | .b => (consumersB s).2.1

/-- The consumers of a close that does not begin in EXIT (R72, R84). -/
theorem consumers_eq {c : Cadence} (o : CloseOrder) {s : State} (h : s.lane.state ≠ .exit) :
    consumers c o s = (if o = .clearanceLast then clearance (passed c s) else passed c s, consumersTrace c s) := by
  unfold consumers
  dsimp only
  rw [consumers_first o h]
  simp only [beq_iff_eq]
  cases c with
  | a => rfl
  | b => rfl

/-- The second part of O25: the passage is looked at within the tick issue. -/
theorem exec_tickIssue_passed {c : Cadence} {o : CloseOrder} {x : OpenTick} {s : State} (h : closesTick s c x)
    (hx : (deliver c x (s.atClose c)).lane.state ≠ .exit) :
    exec (.tickIssue c o) s = .next (issueTick c (maybeReturn (if o = .clearanceLast
      then clearance (passed c (deliver c x (s.atClose c))) else passed c (deliver c x (s.atClose c))))) := by
  have closed : (tickClose c x o (s.atClose c)).1 = maybeReturn (consumers c o (deliver c x (s.atClose c))).1 := rfl
  rw [show exec (.tickIssue c o) s = .next (tickEvent c o s).1 from rfl, tickEvent_closes h o, closed, consumers_eq o hx]

theorem consumersB_crossed {s : State} (h : s.eval.activity ≠ .settling) : (consumersB s).2.2 = (plateClose s).2 := by
  unfold consumersB
  rw [weighClose_stays h]
  rfl

/-! ### The automatic passage (R72) -/

/-- The event of the automatic passage: a crossing, or a close that delivers 1 for both presence sensors (R72). -/
def passageEvent (c : Cadence) (crossed : Bool) (s : State) : Bool := if hasPlateHead s then crossed else bothPresent c s

theorem inSet_iff {s : State} {c : Cadence} {q : Quantity} :
    inSet s c q = true ↔ ∃ m, mapped s q = some m ∧ m.cadence = c := by
  rw [inSet, Option.any_eq_true]
  simp only [beq_iff_eq]

theorem bothPresent_iff {c : Cadence} {s : State} : bothPresent c s = true ↔
    delivers s .axlePresentL 1 = true ∧ delivers s .axlePresentR 1 = true ∧
      ∃ q m, (q = .axlePresentL ∨ q = .axlePresentR) ∧ mapped s q = some m ∧ m.cadence = c := by
  have sets : (inSet s c .axlePresentL || inSet s c .axlePresentR) = true ↔
      ∃ q m, (q = .axlePresentL ∨ q = .axlePresentR) ∧ mapped s q = some m ∧ m.cadence = c := by
    rw [Bool.or_eq_true, inSet_iff, inSet_iff]
    constructor
    · rintro (⟨m, h⟩ | ⟨m, h⟩)
      · exact ⟨_, m, .inl rfl, h⟩
      · exact ⟨_, m, .inr rfl, h⟩
    · rintro ⟨q, m, rfl | rfl, h⟩
      · exact .inl ⟨m, h⟩
      · exact .inr ⟨m, h⟩
  rw [bothPresent, Bool.and_eq_true, Bool.and_eq_true, sets]
  exact ⟨fun ⟨⟨h1, h2⟩, h3⟩ => ⟨h2, h3, h1⟩, fun ⟨h2, h3, h1⟩ => ⟨⟨h1, h2⟩, h3⟩⟩

theorem passageEvent_iff {c : Cadence} {crossed : Bool} {s : State} : passageEvent c crossed s = true ↔
    if hasPlateHead s = true then crossed = true
      else delivers s .axlePresentL 1 = true ∧ delivers s .axlePresentR 1 = true ∧
        ∃ q m, (q = .axlePresentL ∨ q = .axlePresentR) ∧ mapped s q = some m ∧ m.cadence = c := by
  unfold passageEvent
  split
  · rfl
  · exact bothPresent_iff

/-- The passage, with its tests as propositions (R72). -/
theorem autoPassage_eq (c : Cadence) (crossed : Bool) (s : State) : autoPassage c crossed s =
    if s.lane.autoTest = .armed ∧ passageEvent c crossed s = true then
      if s.lane.state = .entry ∧ s.lane.exitWait = false then startTest .autoTest id s
      else if s.lane.state = .halted ∧ s.lane.remembered = some .entry then
        s.setLane fun l => { l with autoTest := .due }
      else s
    else s := by
  unfold autoPassage passageEvent
  simp only [Bool.and_eq_true, beq_iff_eq, Bool.not_eq_true']

/-! ### The test's start by the passage (R71, R72, R88) -/

/-- The state entered at the test's start, before its first step (R71). -/
def testEntered (o : LaneOccasion) (answer : State → State) (s : State) : State :=
  enterLane .testing o answer (s.setLane fun l => { l with autoTest := .clear })

theorem startTest_entered {o : LaneOccasion} {answer : State → State} {p : PlanStep} {v : VehicleRecord} {s : State}
    (h : ∀ s, Speaks s (answer s)) (hv : s.vehicle = some v)
    (hp : (axleSection s.working (limits s).plan).head? = some p) (hr : runnable v.park 1 p = true) :
    startTest o answer s =
      startStep .advance { testEntered o answer s with engine := s.engine.planned (limits s).plan } := by
  have et := (enterLane_speaks h .testing o (s.setLane fun l => { l with autoTest := .clear })).only
  unfold startTest
  rw [← testEntered] at et ⊢
  generalize testEntered o answer s = t at et ⊢
  have found : findStep (axleSection t.working (limits t).plan) (t.vehicle.elim [] (·.park))
      (t.vehicle.elim 0 (·.n)) 1 0 = (1, 0) := by
    rw [et]
    show findStep (axleSection s.working (limits s).plan) (s.vehicle.elim [] (·.park)) (s.vehicle.elim 0 (·.n)) 1 0 = _
    rw [hv]
    exact findStep_first hp hr _
  dsimp only
  rw [found, et]
  rfl

theorem guideStep_station (s : State) : (guideStep s).station = s.station := by
  unfold guideStep
  split
  · rfl
  · next p _ =>
    obtain ⟨x, u, v, m, e, -⟩ := offerGuide_only (stepGuide p s) s
    rw [e]

theorem flushBatches_empty {s : State} (h : ∀ q, (s.qty q).batch.values = []) : flushBatches s = s := by
  unfold flushBatches
  induction allQuantities with
  | nil => rfl
  | cons q rest ih => rw [List.foldl_cons, flushBatch_empty (h q), ih]

theorem neededStale_fresh {p : PlanStep} {s : State} (hp : currentStep s = some p)
    (hn : ∀ q ∈ neededBy p.kind, (mapped s q).isSome = true → (s.qty q).stale = false) : neededStale s = false := by
  refine (Bool.not_eq_true _).mp fun stale => ?_
  obtain ⟨k, hk, q, hq, hm, hst⟩ := (neededStale_iff s).mp stale
  rw [currentKind, hp] at hk
  obtain rfl : p.kind = k := Option.some.inj hk
  exact Bool.false_ne_true ((hn q hq hm).symm.trans hst)

/-- A step that waits after its begin: no more than its notice, its guidance and the Evaluator (R88, R90, R126). -/
theorem startStep_waits {o : BeginOccasion} {p : PlanStep} {s : State} (hp : currentStep s = some p)
    (hk : p.kind = .axleIn ∨ p.kind = .axleOut ∨ p.kind = .weigh)
    (hn : ∀ q ∈ neededBy p.kind, (mapped s q).isSome = true → (s.qty q).stale = false) (hd : anyOvertemp s = false) :
    startStep o s = { announced p o s with
      eval := if p.kind = .weigh then { Evaluator.reset with activity := .settling } else s.eval } := by
  have begun := beginStep_eq (o := o) hp (fun _ => .inr (neededStale_fresh hp hn)) (fun _ => .inr hd)
  rw [beginActions_waits hk] at begun
  have eval : (announced p o s).eval = s.eval := by
    obtain ⟨x, u, v, y, n, m, e⟩ := announced_only p o s
    rw [e]
  rw [startStep_none (by rw [begun]), begun, eval]

/-- The LANE_STATE notice of a test that the passage starts, at a busy port (R64, R71). -/
theorem testEntered_station {s : State} (hv : s.vehicle.isSome = true) (hb : s.station.tx ≠ .idle)
    (hl : s.station.queue.length < 32) (he : ∀ q, (s.qty q).batch.values = []) :
    (testEntered .autoTest id s).station = { s.station with queue := s.station.queue ++
      [originate 62 kindNotice (0x01 :: (word32 s.clock.laneTime ++ [BitVec.ofNat 8 (laneCode .testing),
        BitVec.ofNat 8 (laneCode s.lane.state), 8, BitVec.ofNat 8 (causesByte s.lane.causes), 0, 1]))] } := by
  generalize hi : s.setLane (fun l => { l with state := .testing, autoTest := .clear }) = i
  have flushed : flushBatches i = i := flushBatches_empty (by rw [← hi]; exact he)
  have entered : testEntered .autoTest id s = laneStateNotice s.lane.state .autoTest i := by
    rw [← flushed, ← hi]
    rfl
  have vehicle : i.vehicle.isSome = true := by rw [← hi]; exact hv
  have same : i.station = s.station := by rw [← hi]; rfl
  rw [entered, laneStateNotice, vehicle, notice_busy_room _ _ (by rw [same]; exact hb) (by rw [same]; exact hl), same,
    ← hi]
  rfl

/-- The STEP_BEGIN notice of the first step of a plan, at a busy port (R88). -/
theorem announced_station {p : PlanStep} {plan : Nat} {e : EngineState} {s : State} (hb : s.station.tx ≠ .idle)
    (hl : s.station.queue.length < 32) :
    (announced p .advance { s with engine := e.planned plan }).station = { s.station with queue := s.station.queue ++
      [originate 62 kindNotice (0x02 :: (word32 s.clock.laneTime ++ [BitVec.ofNat 8 plan, 0,
        BitVec.ofNat 8 (stepKindCode p.kind), 1, 1, 0]))] } := by
  unfold announced stepBeginNotice
  rw [guideStep_station]
  exact notice_busy_room (s := { s with engine := (e.planned plan).begun .advance }) _ _ hb hl

/-- The last part of O25: the test that the passage starts. -/
theorem startTest_passed {p : PlanStep} {v : VehicleRecord} {s : State} (hv : s.vehicle = some v)
    (hp : (axleSection s.working (limits s).plan).head? = some p)
    (hk : p.kind = .axleIn ∨ p.kind = .axleOut ∨ p.kind = .weigh) (hr : runnable v.park 1 p = true)
    (hn : ∀ q ∈ neededBy p.kind, (mapped s q).isSome = true → (s.qty q).stale = false) (hd : anyOvertemp s = false) :
    startTest .autoTest id s =
      { announced p .advance { testEntered .autoTest id s with engine := s.engine.planned (limits s).plan } with
        eval := if p.kind = .weigh then { Evaluator.reset with activity := .settling } else s.eval } := by
  rw [startTest_entered id_speaks hv hp hr]
  have entered := enterLane_speaks id_speaks .testing .autoTest (s.setLane fun l => { l with autoTest := .clear })
  rw [← testEntered] at entered
  generalize testEntered .autoTest id s = t at entered ⊢
  have et := entered.only
  have current : currentStep { t with engine := s.engine.planned (limits s).plan } = some p := by
    rw [et]
    exact axleSection_first hp
  have fresh : ∀ q ∈ neededBy p.kind, (mapped t q).isSome = true → (t.qty q).stale = false := fun q hq hm => by
    rw [entered.qty]
    rw [et] at hm
    exact hn q hq hm
  have cool : anyOvertemp t = false := by rw [et]; exact hd
  have eval : t.eval = s.eval := by rw [et]; rfl
  rw [← eval]
  exact startStep_waits current hk fresh cool

/-- Settles O25: the entry, the place of the passage in a tick issue, the passage, and the test that it starts. -/
theorem entryTakesTareAndPlate : Obligations.EntryTakesTareAndPlate := by
  unfold Obligations.EntryTakesTareAndPlate
  refine ⟨fun toTest f s fits h hs hv hx => ?_, fun c o x s h => ?_, fun c crossed s => ?_,
    fun p v s hv hp hk hr hn hd => ?_⟩
  · obtain ⟨t, run, entered⟩ := exec_entry_takes toTest f s fits h hs hv hx
    refine ⟨t, run, entered.lane, fun q => ?_, entered.plate, entered.log, entered.engine, entered.room, entered.full,
      entered.only⟩
    obtain ⟨values, qty⟩ := entered.qty q
    have tare : (t.qty q).tare = (tareTaken s q).getD (s.qty q).tare := congrArg QuantityState.tare qty
    refine ⟨values, ?_, fun m u hm ht hu hst => ?_, fun none => ?_⟩
    · rw [tare]
      exact qty
    · rw [tare, tareTaken_fresh hm ht hu hst, Option.getD_some]
    · rw [tare, tareTaken_none none, Option.getD_none]
  · intro u hexit
    refine ⟨?_, fun settles => consumersB_crossed settles⟩
    refine (exec_tickIssue_passed h hexit).trans ?_
    cases c with
    | a => rw [passed]
    | b => rw [passed]
  · dsimp only
    rw [← passageEvent_iff, autoPassage_eq]
    refine ⟨fun armed met entered => ?_, fun armed met remembers => ?_, fun none => ?_⟩
    · rw [if_pos ⟨armed, met⟩, if_pos entered]
    · have left : ¬ (s.lane.state = .entry ∧ s.lane.exitWait = false) := fun entered =>
        nomatch entered.1.symm.trans remembers.1
      rw [if_pos ⟨armed, met⟩, if_neg left, if_pos remembers]
      rfl
    · rcases none with h | h | ⟨h1, h2⟩
      · rw [if_neg fun e => h e.1]
      · rw [if_neg fun e => h e.2]
      · rw [if_neg h1, if_neg h2, ite_self]
  · have run := startTest_passed hv hp hk hr hn hd
    have entered := enterLane_speaks id_speaks .testing .autoTest (s.setLane fun l => { l with autoTest := .clear })
    have values := enterLane_values id .testing .autoTest (s.setLane fun l => { l with autoTest := .clear })
    have station := testEntered_station (s := s) (by rw [hv]; rfl)
    rw [← testEntered] at entered values
    generalize testEntered .autoTest id s = t at run entered values station
    have et := entered.only
    have announcement := announced_station (p := p) (plan := (limits s).plan) (e := s.engine) (s := t)
    obtain ⟨x, u, w, y, n, m, ea⟩ := announced_only p .advance { t with engine := s.engine.planned (limits s).plan }
    dsimp only
    rw [run]
    refine ⟨?_, ?_, rfl, fun q => ?_, fun hb hl he => ?_, ?_⟩
    · rw [ea, et]
      rfl
    · rw [ea]
      rfl
    · have qty : State.qty (announced p .advance { t with engine := s.engine.planned (limits s).plan }) q = t.qty q := by
        rw [ea]
        rfl
      show (State.qty (announced p .advance { t with engine := s.engine.planned (limits s).plan }) q).batch.values = [] ∧
        State.qty (announced p .advance { t with engine := s.engine.planned (limits s).plan }) q = { s.qty q with
          batch := (State.qty (announced p .advance { t with engine := s.engine.planned (limits s).plan }) q).batch }
      rw [qty]
      exact ⟨values q, entered.qty q⟩
    · have hs := station hb (by omega) he
      have time : t.clock = s.clock := by rw [et]; rfl
      refine (announcement (by rw [hs]; exact hb) ?_).trans ?_
      · rw [hs, List.length_append, List.length_singleton]
        omega
      · rw [hs, time, List.append_assoc]
        rfl
    · rw [ea, et]
      rfl

end Sys2Proof.Machine
end

section
/-! The consumers of a tick close, and the rows that name what they do (R90, R104, R117, R118, R123, R130). -/

namespace Sys2Proof.Machine

/-! ### A side at a close of A (R116 to R118, R123) -/

/-- The side after a close at which it is RUNNING, with its new slip (R116). -/
def slipped (sd : Side) (s : State) : State := s.setRoller sd { s.roller sd with slip := newSlip sd s }

/-- The side after a close that counts for its watch (R117). -/
def counted (sd : Side) (w : Watch) (s : State) : State :=
  s.setRoller sd { s.roller sd with slip := newSlip sd s, watch := some (newWatch sd s (newSlip sd s) w) }

theorem slipped_roller (sd : Side) (s : State) :
    (slipped sd s).roller sd = { s.roller sd with slip := newSlip sd s } := roller_setRoller _ _ _

theorem slipped_watch {sd : Side} {s : State} {w : Option Watch} (h : (s.roller sd).watch = w) :
    ((slipped sd s).roller sd).watch = w := by
  rw [slipped_roller]
  exact h

theorem runningClose_unwatched {sd : Side} {s : State} (h : (s.roller sd).watch = none) :
    runningClose sd s = (slipped sd s, SideTrace.none) := by
  unfold runningClose
  dsimp only
  rw [← slipped, slipped_watch h]

theorem runningClose_locks {sd : Side} {w : Watch} {s : State} (h : (s.roller sd).watch = some w)
    (hc : (limits s).lockConfirm ≤ (newWatch sd s (newSlip sd s) w).count) :
    runningClose sd s = (stopRunning sd (slipped sd s), { SideTrace.none with lock := true }) := by
  unfold runningClose
  dsimp only
  rw [← slipped, slipped_watch h]
  exact if_pos hc

theorem runningClose_watched {sd : Side} {w : Watch} {s : State} (h : (s.roller sd).watch = some w)
    (hc : (newWatch sd s (newSlip sd s) w).count < (limits s).lockConfirm) : runningClose sd s =
      if runningKind s .hold = true ∧ (s.roller sd).window ≠ 0 then accumulate sd (counted sd w s)
      else (counted sd w s, SideTrace.none) := by
  unfold runningClose
  dsimp only
  rw [← slipped, slipped_watch h]
  refine (if_neg (Nat.not_le.mpr hc)).trans ?_
  have same : (slipped sd s).setRoller sd { (slipped sd s).roller sd with
      watch := some (newWatch sd (slipped sd s) (newSlip sd s) w) } = counted sd w s := by
    rw [slipped_roller, slipped, setRoller_setRoller]
    rfl
  have window : ((counted sd w s).roller sd).window = (s.roller sd).window := by rw [counted, roller_setRoller]
  rw [same, window]
  simp only [Bool.and_eq_true, bne_iff_ne]
  rfl

theorem pulseSum_counted (sd : Side) (w : Watch) (s : State) : pulseSum sd (counted sd w s) = pulseSum sd s := by
  rw [pulseSum, counted, roller_setRoller]
  rfl

/-- What closing a side of A replaces: the head port with its urgent places, and the side (R114 to R118, R123). -/
def Closes (sd : Side) (s t : State) : Prop :=
  ∃ x u v r, t = s.stopping sd x u v s.station s.live.station.txOverrun r

theorem Closes.refl (sd : Side) (s : State) : Closes sd s s := ⟨_, _, _, s.roller sd, (setRoller_roller s sd).symm⟩

theorem setRoller_closes (sd : Side) (s : State) (r : RollerSide) : Closes sd s (s.setRoller sd r) := ⟨_, _, _, r, rfl⟩

theorem Closes.of_setRoller {sd : Side} {s t : State} {r : RollerSide} (h : Closes sd (s.setRoller sd r) t) :
    Closes sd s t := by
  obtain ⟨x, u, v, q, e⟩ := h
  refine ⟨x, u, v, q, e.trans ?_⟩
  cases sd with
  | left => rfl
  | right => rfl

theorem runningClose_closes (sd : Side) (s : State) : Closes sd s (runningClose sd s).1 := by
  cases hw : (s.roller sd).watch with
  | none =>
    rw [runningClose_unwatched hw]
    exact setRoller_closes _ _ _
  | some w =>
    by_cases hc : (limits s).lockConfirm ≤ (newWatch sd s (newSlip sd s) w).count
    · rw [runningClose_locks hw hc]
      obtain ⟨x, u, v, b, e⟩ := stopRunning_stopping sd (slipped sd s)
      exact Closes.of_setRoller ⟨x, u, v, _, e⟩
    · rw [runningClose_watched hw (Nat.not_le.mp hc)]
      split
      · rw [accumulate, counted, setRoller_setRoller]
        exact setRoller_closes _ _ _
      · exact setRoller_closes _ _ _

theorem sideClose_closes (sd : Side) (s : State) : Closes sd s (sideClose sd s).1 := by
  unfold sideClose
  dsimp only
  split
  · exact .refl sd s
  · exact .refl sd s
  · split
    · exact .refl sd s
    · split
      · exact setRoller_closes _ _ _
      · exact .refl sd s
  · split
    · exact setRoller_closes _ _ _
    · exact .refl sd s
  · exact runningClose_closes sd s

/-- What a RUNNING side hands on at a close of A (R117, R118, R123, R124). -/
def runningTrace (sd : Side) (s : State) : SideTrace :=
  (s.roller sd).watch.elim SideTrace.none fun w =>
    if (limits s).lockConfirm ≤ (newWatch sd s (newSlip sd s) w).count then { SideTrace.none with lock := true }
    else if runningKind s .hold = true ∧ (s.roller sd).window ≠ 0 then
      { lock := false, window := some ((s.roller sd).window, decide (2 ^ 32 ≤ pulseSum sd s))
        carry := decide (2 ^ 32 ≤ pulseSum sd s) }
    else SideTrace.none

/-- What a side hands on at a close of A, by its state at the close's start. -/
def sideTrace (sd : Side) (s : State) : SideTrace :=
  if (s.roller sd).state = .running then runningTrace sd s else SideTrace.none

theorem runningClose_trace (sd : Side) (s : State) : (runningClose sd s).2 = runningTrace sd s := by
  unfold runningTrace
  cases hw : (s.roller sd).watch with
  | none => rw [runningClose_unwatched hw, Option.elim_none]
  | some w =>
    rw [Option.elim_some]
    by_cases hc : (limits s).lockConfirm ≤ (newWatch sd s (newSlip sd s) w).count
    · rw [runningClose_locks hw hc, if_pos hc]
    · rw [runningClose_watched hw (Nat.not_le.mp hc), if_neg hc]
      split
      · unfold accumulate
        rw [pulseSum_counted, counted, roller_setRoller]
      · rfl

theorem sideClose_trace (sd : Side) (s : State) : (sideClose sd s).2.2 = sideTrace sd s := by
  unfold sideClose sideTrace
  dsimp only
  cases (s.roller sd).state with
  | stopped => rfl
  | held => rfl
  | spinningUp =>
    cases (s.roller sd).sendTime with
    | none => rfl
    | some t =>
      dsimp only
      split
      · rfl
      · rfl
  | coasting =>
    dsimp only
    split
    · rfl
    · rfl
  | running => exact runningClose_trace sd s

/-- A side locks at a close whose count reaches the lock confirm (R117, R118). -/
theorem sideTrace_locks {sd : Side} {w : Watch} {s : State} (hr : (s.roller sd).state = .running)
    (hw : (s.roller sd).watch = some w) (hc : (limits s).lockConfirm ≤ (newWatch sd s (newSlip sd s) w).count) :
    (sideTrace sd s).lock = true := by
  rw [sideTrace, if_pos hr, runningTrace, hw, Option.elim_some, if_pos hc]

/-- A side has a carry at a close without a lock whose pulses bring the accumulator to 2³² (R123). -/
theorem sideTrace_carries {sd : Side} {w : Watch} {s : State} (hr : (s.roller sd).state = .running)
    (hw : (s.roller sd).watch = some w) (hc : (newWatch sd s (newSlip sd s) w).count < (limits s).lockConfirm)
    (hk : runningKind s .hold = true) (hn : (s.roller sd).window ≠ 0) (hp : 2 ^ 32 ≤ pulseSum sd s) :
    (sideTrace sd s).carry = true := by
  rw [sideTrace, if_pos hr, runningTrace, hw, Option.elim_some, if_neg (Nat.not_le.mpr hc), if_pos ⟨hk, hn⟩]
  exact decide_eq_true hp

/-- Closing the left side is nothing to the right side, and hands on nothing of it. -/
theorem sideTrace_right (s : State) : sideTrace .right (sideClose .left s).1 = sideTrace .right s := by
  obtain ⟨x, u, v, r, e⟩ := sideClose_closes .left s
  rw [e]
  rfl

/-! ### Both sides at a close of A, and their measurement (R94, R128 to R133) -/

/-- Both sides closed, L before R. -/
def sidesClosed (s : State) : State := (sideClose .right (sideClose .left s).1).1

/-- What the two sides hand on to the Evaluator. -/
def sideTraces (s : State) : Pair SideTrace := { left := sideTrace .left s, right := sideTrace .right s }

/-- Both sides closed and measured. -/
def sidesMeasured (s : State) : State :=
  if measuringRuns (sidesClosed s) then measureClose (sideTraces s) (sidesClosed s) else sidesClosed s

/-- What the consumers of a set of A bring to the rows. -/
theorem consumersA_trace (s : State) : (consumersA s).2 = { CloseTrace.nothing with
    locked := { left := (sideTrace .left s).lock, right := (sideTrace .right s).lock }
    carried := { left := (sideTrace .left s).carry, right := (sideTrace .right s).carry }
    released := { left := releasedNow (sidesClosed s).eval.sides.left (sidesMeasured s).eval.sides.left
                  right := releasedNow (sidesClosed s).eval.sides.right (sidesMeasured s).eval.sides.right }
    bars := (barsClose (sidesMeasured s)).2 } := by
  have left := sideClose_trace .left s
  have right := (sideClose_trace .right (sideClose .left s).1).trans (sideTrace_right s)
  unfold sidesMeasured sideTraces
  rw [← left, ← right]
  rfl

theorem sidesClosed_only (s : State) : ∃ x u v r, sidesClosed s =
    { s with head := x, urgent := u, headPlace := v, rollers := r } := by
  obtain ⟨x, u, v, r, e⟩ := sideClose_closes .left s
  obtain ⟨x', u', v', r', e'⟩ := sideClose_closes .right (sideClose .left s).1
  rw [sidesClosed, e', e]
  exact ⟨x', u', v', _, rfl⟩

theorem reportEnded_only (sd : Side) (s : State) : ∃ r, reportEnded sd s = { s with rollers := r } := by
  unfold reportEnded
  split
  · exact ⟨_, rfl⟩
  · exact ⟨s.rollers, rfl⟩

theorem reportEnded_both (e : Evaluator) (s : State) :
    ∃ r, reportEnded .right (reportEnded .left { s with eval := e }) = { s with eval := e, rollers := r } := by
  obtain ⟨a, ea⟩ := reportEnded_only .left { s with eval := e }
  rw [ea]
  exact reportEnded_only .right _

/-- What a measurement replaces: the Evaluator, each side as it is judged, and the rollers (R117, R129 to R138). -/
theorem measureClose_only (l : Pair SideTrace) (s : State) : ∃ e r, measureClose l s = { s with eval := e, rollers := r } ∧
    e.sides = { left := evalSide .left l.left s, right := evalSide .right l.right s } :=
  ⟨_, _, (reportEnded_both _ s).choose_spec, rfl⟩

theorem sidesMeasured_only (s : State) : ∃ x u v e r, sidesMeasured s =
    { s with head := x, urgent := u, headPlace := v, eval := e, rollers := r } := by
  obtain ⟨x, u, v, r, e⟩ := sidesClosed_only s
  unfold sidesMeasured
  split
  · obtain ⟨ev, ro, em, -⟩ := measureClose_only (sideTraces s) (sidesClosed s)
    exact ⟨x, u, v, ev, ro, by rw [em, e]⟩
  · exact ⟨x, u, v, s.eval, r, e⟩

/-- The release that completes the release confirm ends an engaged side (R130). -/
theorem forceSide_released {lim : ClassLimits} {service : Bool} {v : Int} {pedal : Option Int} {x : EvalSide}
    (hp : x.phase = .engaged) (hv : v < lim.releaseForce) (hr : lim.releaseConfirm ≤ x.release + 1) :
    (forceSide lim service false (some v) pedal x).phase = .ended ∧
      (forceSide lim service false (some v) pedal x).ending = .released := by
  have engaged : engage lim (some v) x = x := by
    rw [engage, hp]
    rfl
  have followed : (follow service (some v) pedal x).release = x.release := by
    unfold follow
    dsimp only
    split
    · rfl
    · rfl
  unfold forceSide
  dsimp only
  rw [engaged, hp]
  dsimp only [release]
  rw [followed]
  simp [hv, hr, EvalSide.endAs]

theorem evalSide_releases {sd : Side} {l : SideTrace} {v : Int} {s : State} (ha : s.eval.activity = .force)
    (hp : (s.eval.sides.get sd).phase = .engaged) (hl : l.lock = false) (hv : value s (brakeForce sd) = some v)
    (hf : v < (limits s).releaseForce) (hr : (limits s).releaseConfirm ≤ (s.eval.sides.get sd).release + 1) :
    releasedNow (s.eval.sides.get sd) (evalSide sd l s) = true := by
  have active : (s.eval.sides.get sd).active = true := by
    rw [EvalSide.active, hp]
    rfl
  have judged : evalSide sd l s = forceSide (limits s) (runningKind s .service) false (some v) (value s .pedalForce)
      { s.eval.sides.get sd with stale := (s.eval.sides.get sd).stale || sideStale s sd } := by
    unfold evalSide
    dsimp only
    rw [active, ha, hl, hv]
    rfl
  obtain ⟨phase, ending⟩ := forceSide_released (service := runningKind s .service) (pedal := value s .pedalForce)
    (x := { s.eval.sides.get sd with stale := (s.eval.sides.get sd).stale || sideStale s sd }) hp hf hr
  rw [releasedNow, judged, phase, ending, hp]
  rfl

/-- A side released at a close of A (R130). -/
theorem sidesMeasured_releases {sd : Side} {v : Int} {s : State} (hm : measuringRuns s = true)
    (ha : s.eval.activity = .force) (hp : (s.eval.sides.get sd).phase = .engaged)
    (hl : (sideTrace sd s).lock = false) (hv : value s (brakeForce sd) = some v) (hf : v < (limits s).releaseForce)
    (hr : (limits s).releaseConfirm ≤ (s.eval.sides.get sd).release + 1) :
    releasedNow ((sidesClosed s).eval.sides.get sd) ((sidesMeasured s).eval.sides.get sd) = true := by
  obtain ⟨x, u, w, r, e⟩ := sidesClosed_only s
  obtain ⟨ev, ro, em, hs⟩ := measureClose_only (sideTraces s) (sidesClosed s)
  have runs : measuringRuns (sidesClosed s) = true := by
    rw [e]
    exact hm
  have lock : ((sideTraces s).get sd).lock = false := by
    cases sd with
    | left => exact hl
    | right => exact hl
  have side : (sidesMeasured s).eval.sides.get sd = evalSide sd ((sideTraces s).get sd) (sidesClosed s) := by
    rw [sidesMeasured, if_pos runs, em]
    dsimp only
    rw [hs]
    cases sd with
    | left => rfl
    | right => rfl
  rw [side]
  refine evalSide_releases (v := v) ?_ ?_ lock ?_ ?_ ?_
  all_goals rw [e]
  · exact ha
  · exact hp
  · exact hv
  · exact hf
  · exact hr

/-! ### The bars (R104) -/

/-- The bar phase replaced. -/
def barPhased (n : Nat) (s : State) : State := { s with engine := { s.engine with barPhase := n } }

theorem barsClose_idle {s : State} (h : measuringRuns s = false) : barsClose s = (s, false) := by
  rw [barsClose, h]
  rfl

theorem barsClose_waits {s : State} (h : measuringRuns s = true) (hn : s.engine.barPhase + 1 < (settings s).barInterval) :
    barsClose s = (barPhased (s.engine.barPhase + 1) s, false) := by
  rw [barsClose, h, if_neg (by decide), if_neg (Nat.not_le.mpr hn)]
  rfl

theorem barsClose_due {s : State} (h : measuringRuns s = true) (hn : (settings s).barInterval ≤ s.engine.barPhase + 1) :
    barsClose s = (if (offer .head (barsFrame s) (barPhased 0 s)).2 then (offer .head (barsFrame s) (barPhased 0 s)).1
      else (offer .head (barsFrame s) (barPhased 0 s)).1.count fun c => { c with droppedBars := c.droppedBars + 1 },
      true) := by
  rw [barsClose, h, if_neg (by decide), if_pos hn]
  rfl

/-- At a busy head port the bar frame joins the queue, or is counted as dropped (R104). -/
theorem barsClose_busy {s : State} (h : measuringRuns s = true) (hn : (settings s).barInterval ≤ s.engine.barPhase + 1)
    (hb : s.head.tx ≠ .idle) : barsClose s = (if s.head.queue.length < 16 then
        { barPhased 0 s with head := { s.head with queue := s.head.queue ++ [barsFrame s] } }
      else { barPhased 0 s with live := { s.live with droppedBars := s.live.droppedBars + 1 } }, true) := by
  have offered : offer .head (barsFrame s) (barPhased 0 s) = if s.head.queue.length < 16 then
      ({ barPhased 0 s with head := { s.head with queue := s.head.queue ++ [barsFrame s] } }, true)
    else (barPhased 0 s, false) := offer_head_busy _ hb
  rw [barsClose_due h hn, offered]
  split
  · rfl
  · rfl

/-- The weight of a present value in the first byte of a bar frame (R104). -/
def presentBit (v : Option Int) (bit : Nat) : Nat := if v.isSome then bit else 0

theorem bits_present (l r p : Option Int) :
    bits [l.isSome, r.isSome, p.isSome] = presentBit l 1 + presentBit r 2 + presentBit p 4 := by
  unfold presentBit
  cases l.isSome <;> cases r.isSome <;> cases p.isSome <;> rfl

theorem whenPresent_flatMap (l : List (Option Int)) :
    (l.filterMap id).flatMap signed24 = l.flatMap (whenPresent signed24) := by
  induction l with
  | nil => rfl
  | cons v rest ih =>
    rw [List.flatMap_cons, ← ih]
    cases v with
    | none => rfl
    | some x => rfl

theorem barsFrame_eq (s : State) : barsFrame s = originate ((displayNode s).getD 0) kindGuideBars
    (BitVec.ofNat 8 (presentBit (value s .brakeForceL) 1 + presentBit (value s .brakeForceR) 2 +
      presentBit (value s .pedalForce) 4) ::
      ([value s .brakeForceL, value s .brakeForceR, value s .pedalForce].filterMap id).flatMap signed24) := by
  rw [whenPresent_flatMap, ← bits_present, barsFrame]
  simp only [List.flatMap_cons, List.flatMap_nil, List.append_nil, List.append_assoc]
  rfl

/-! ### The presence count (R90) -/

/-- What a tick close of B replaces in the Plate Unit's part (R149 to R156). -/
def PlateCloses (s t : State) : Prop :=
  t = { s with plate := t.plate, vehicle := t.vehicle, station := t.station, live := t.live }

theorem PlateCloses.notice {s t : State} (h : PlateCloses s t) (code : Byte) (fields : List Byte) :
    PlateCloses s (notice code fields t) := by
  obtain ⟨x, n, e, -⟩ := notice_only code fields t
  unfold PlateCloses at h ⊢
  rw [e, h]

theorem attributeCrossing_closes (n : Nat) (c : Crossing) (b : Bool) (v : VehicleRecord) (s : State) :
    PlateCloses s (attributeCrossing n c b v s).1 := by
  unfold attributeCrossing
  split
  · refine PlateCloses.notice ?_ _ _
    rfl
  · refine PlateCloses.notice ?_ _ _
    rfl

theorem PlateCloses.trans {s t u : State} (h : PlateCloses s t) (k : PlateCloses t u) : PlateCloses s u := by
  unfold PlateCloses at h k ⊢
  rw [k, h]

theorem closeCrossing_closes (s : State) : PlateCloses s (closeCrossing s).1 := by
  unfold closeCrossing
  dsimp only
  split
  · refine PlateCloses.notice ?_ _ _
    rfl
  · refine PlateCloses.trans ?_ (attributeCrossing_closes _ _ _ _ _)
    rfl
  · rfl

theorem plateClose_closes (s : State) : PlateCloses s (plateClose s).1 := by
  unfold plateClose
  split
  · rfl
  · dsimp only
    split
    · rfl
    · rfl
  · split
    · rfl
    · rfl
  · split
    · rfl
    · split
      · exact closeCrossing_closes s
      · rfl

/-- AXLE_IN tests the presence sensors for 1, and AXLE_OUT for 0 (R90). -/
def TestsPresence (s : State) (want : Int) : Prop :=
  currentKind s = some .axleIn ∧ want = 1 ∨ currentKind s = some .axleOut ∧ want = 0

/-- Every mapped presence sensor delivers the value (R90). -/
def bothDeliver (s : State) (want : Int) : Bool :=
  deliversIfMapped s .axlePresentL want && deliversIfMapped s .axlePresentR want

theorem bothDeliver_iff {s : State} {want : Int} : bothDeliver s want = true ↔
    ∀ q ∈ ([.axlePresentL, .axlePresentR] : List Quantity), mapped s q = none ∨ delivers s q want = true := by
  simp only [bothDeliver, deliversIfMapped, Bool.and_eq_true, Bool.or_eq_true, Option.isNone_iff_eq_none,
    List.forall_mem_cons, List.not_mem_nil, false_implies, implies_true, and_true]

/-- The presence count replaced. -/
def presenceCounted (n : Nat) (s : State) : State := { s with engine := { s.engine with presence := n } }

theorem presenceClose_tests {s : State} {want : Int} (hr : s.engine.phase = .running) (h : TestsPresence s want) :
    presenceClose s = if bothDeliver s want = true then
        if 5 ≤ s.engine.presence + 1 then (finishStep completed (presenceCounted (s.engine.presence + 1) s), true)
        else (presenceCounted (s.engine.presence + 1) s, false)
      else (presenceCounted 0 s, false) := by
  unfold presenceClose
  rcases h with ⟨hk, rfl⟩ | ⟨hk, rfl⟩
  · rw [hk, hr]
    rfl
  · rw [hk, hr]
    rfl

theorem presenceClose_idle {s : State} (h : ∀ want, ¬ (s.engine.phase = .running ∧ TestsPresence s want)) :
    presenceClose s = (s, false) := by
  by_cases hr : s.engine.phase = .running
  · have notIn : currentKind s ≠ some .axleIn := fun hk => h 1 ⟨hr, .inl ⟨hk, rfl⟩⟩
    have notOut : currentKind s ≠ some .axleOut := fun hk => h 0 ⟨hr, .inr ⟨hk, rfl⟩⟩
    unfold presenceClose
    dsimp only
    split
    · rfl
    next x hx =>
      split at hx
      next hk => exact absurd hk notIn
      next hk => exact absurd hk notOut
      · exact nomatch hx
  · unfold presenceClose
    dsimp only
    split
    · rfl
    · exact if_pos (bne_iff_ne.mpr hr)

/-- Outside a WEIGH that settles, the presence test follows the Plate Unit at a close of B (log entry 4). -/
theorem consumersB_eq {s : State} (h : s.eval.activity ≠ .settling) : consumersB s =
    ((presenceClose (plateClose s).1).1, { CloseTrace.nothing with presence := (presenceClose (plateClose s).1).2 },
      (plateClose s).2) := by
  unfold consumersB
  rw [weighClose_stays h]
  rfl

/-! ### The rows (log entry 5) -/

theorem tickClose_trace {c : Cadence} (x : OpenTick) (o : CloseOrder) {s : State}
    (h : (deliver c x s).lane.state ≠ .exit) : (tickClose c x o s).2 =
      { consumersTrace c (deliver c x s) with stale := becomeStale c x s } := by
  unfold tickClose
  rw [consumers_eq o h]

theorem consumersTrace_locked (sd : Side) (s : State) :
    (consumersTrace .a s).locked.get sd = (sideTrace sd s).lock := by
  rw [consumersTrace, consumersA_trace]
  cases sd with
  | left => rfl
  | right => rfl

theorem consumersTrace_carried (sd : Side) (s : State) :
    (consumersTrace .a s).carried.get sd = (sideTrace sd s).carry := by
  rw [consumersTrace, consumersA_trace]
  cases sd with
  | left => rfl
  | right => rfl

theorem consumersTrace_released (sd : Side) (s : State) : (consumersTrace .a s).released.get sd =
    releasedNow ((sidesClosed s).eval.sides.get sd) ((sidesMeasured s).eval.sides.get sd) := by
  rw [consumersTrace, consumersA_trace]
  cases sd with
  | left => rfl
  | right => rfl

theorem consumersTrace_bars (s : State) : (consumersTrace .a s).bars = (barsClose (sidesMeasured s)).2 := by
  rw [consumersTrace, consumersA_trace]

/-- A row that names what a close does, when the consumers of the set do it (log entry 5). -/
theorem whenTrace_consumed {c : Cadence} {x : OpenTick} {o : CloseOrder} {s : State} {happens : CloseTrace → Bool}
    (hc : closesTick s c x) (hx : (deliver c x (s.atClose c)).lane.state ≠ .exit)
    (h : happens { consumersTrace c (deliver c x (s.atClose c)) with stale := becomeStale c x (s.atClose c) } = true) :
    Host.Outcome.next (whenTrace c o happens s) =
      (.next (issueTick c (tickClose c x o (s.atClose c)).1) : Host.Outcome State Fault Refusal) :=
  congrArg Host.Outcome.next (whenTrace_happens hc (by rw [tickClose_trace x o hx]; exact h))

/-- The presence test of the fifth close in a row ends the step (R90). -/
theorem consumersB_presence {s : State} {want : Int} (ha : s.eval.activity ≠ .settling)
    (hr : s.engine.phase = .running) (hn : 4 ≤ s.engine.presence) (ht : TestsPresence s want)
    (hd : bothDeliver s want = true) : (consumersB s).2.1.presence = true := by
  rw [consumersB_eq ha]
  have e := plateClose_closes s
  generalize (plateClose s).1 = t at e ⊢
  have engine : t.engine = s.engine := by rw [e]
  have tests : TestsPresence t want := by rw [e]; exact ht
  have deliver : bothDeliver t want = true := by rw [e]; exact hd
  show (presenceClose t).2 = true
  rw [presenceClose_tests (by rw [engine]; exact hr) tests, if_pos deliver, engine, if_pos (by omega)]

/-- The bars of a close of A are taken after the measurement (R104; log entry 4). -/
theorem sidesMeasured_bars {s : State} (hm : measuringRuns s = true)
    (hn : (settings s).barInterval ≤ s.engine.barPhase + 1) : (barsClose (sidesMeasured s)).2 = true := by
  obtain ⟨x, u, v, e, r, em⟩ := sidesMeasured_only s
  have runs : measuringRuns (sidesMeasured s) = true := by rw [em]; exact hm
  rw [barsClose_due runs (by rw [em]; exact hn)]

/-- Settles O45: each row is its tick issue when a consumer of the set does what the row names. -/
theorem closeRowsAreTheirTickIssue : Obligations.CloseRowsAreTheirTickIssue := by
  unfold Obligations.CloseRowsAreTheirTickIssue
  refine ⟨fun sd o x s h => ?_, fun o x s => ⟨fun h => ?_, fun h => ?_⟩, fun s => ?_, fun s => ?_⟩
  · dsimp only
    intro hexit
    refine ⟨fun w hr hw => ⟨fun hc => ?_, fun hc hk hn hp => ?_⟩, fun v hm ha hp hl hv hf hc => ?_⟩
    · refine whenTrace_consumed h hexit ?_
      dsimp only
      rw [consumersTrace_locked]
      exact sideTrace_locks hr hw hc
    · refine whenTrace_consumed h hexit ?_
      dsimp only
      rw [consumersTrace_carried]
      exact sideTrace_carries hr hw hc hk hn hp
    · refine whenTrace_consumed h hexit ?_
      dsimp only
      rw [consumersTrace_released]
      exact sidesMeasured_releases hm ha hp (by rw [← sideClose_trace]; exact hl) hv hf hc
  · dsimp only
    rintro hexit ha hr hn ⟨want, ht, hl, hd⟩
    refine whenTrace_consumed h hexit ?_
    dsimp only
    rw [consumersTrace]
    exact consumersB_presence ha hr hn ht (by rw [bothDeliver, hl, hd]; rfl)
  · dsimp only
    intro hexit hm hn
    refine whenTrace_consumed h hexit ?_
    dsimp only
    rw [consumersTrace_bars]
    exact sidesMeasured_bars hm hn
  · refine ⟨fun ha => by rw [consumersB_eq ha], presenceClose_idle, fun want ⟨hr, ht⟩ => ?_⟩
    dsimp only
    rw [presenceClose_tests hr ht, ← bothDeliver_iff]
    refine ⟨fun hd => if_neg hd, fun hd hn => ?_, fun hd hn => ?_⟩
    · rw [if_pos hd, if_neg (by omega)]
      rfl
    · rw [if_pos hd, if_pos (by omega)]
      rfl
  · dsimp only
    refine ⟨barsClose_idle, barsClose_waits, fun hm hn hb => ?_⟩
    rw [barsClose_busy hm hn.ge hb, barsFrame_eq]
    rfl

end Sys2Proof.Machine
end

section
/-! Entries of the tables as bytes (R51 to R53, section 11.5): what a parse takes, its encoding gives back. -/

namespace Sys2Proof.Machine

/-! ### Numbers read from bytes and written again (R183) -/

theorem be8_readNat {m : List Byte} (h : m.length = 1) : be8 (readNat m) = m := by
  obtain ⟨a, rfl⟩ := List.length_eq_one_iff.mp h
  simp [be8, readNat]

theorem be16_readNat {m : List Byte} (h : m.length = 2) : be16 (readNat m) = m := by
  obtain ⟨a, b, rfl⟩ := List.length_eq_two.mp h
  have ha := a.isLt
  have hb := b.isLt
  simp only [be16, readNat, List.foldl_cons, List.foldl_nil, List.cons.injEq, and_true, ← BitVec.toNat_inj,
    BitVec.toNat_ofNat]
  omega

theorem be24_readNat {m : List Byte} (h : m.length = 3) : be24 (readNat m) = m := by
  obtain ⟨a, b, c, rfl⟩ := List.length_eq_three.mp h
  have ha := a.isLt
  have hb := b.isLt
  have hc := c.isLt
  simp only [be24, be16, readNat, List.foldl_cons, List.foldl_nil, List.cons.injEq, and_true, ← BitVec.toNat_inj,
    BitVec.toNat_ofNat]
  omega

theorem readNat_lt (m : List Byte) : readNat m < 256 ^ m.length := by
  induction m using List.reverseRecOn with
  | nil => exact Nat.one_pos
  | append_singleton m b ih =>
    have hb := b.isLt
    rw [readNat, List.foldl_append, List.foldl_cons, List.foldl_nil, List.length_append, List.length_singleton,
      pow_succ]
    rw [readNat] at ih
    omega

/-- The two's complement of the signed number that bytes spell is the number they spell (R183). -/
theorem ofInt_readInt {m : List Byte} {w : Nat} (h : 2 ^ w = 256 ^ m.length) :
    (BitVec.ofInt w (readInt m)).toNat = readNat m := by
  have hm := readNat_lt m
  rw [BitVec.toNat_ofInt, h, readInt]
  generalize readNat m = n at hm ⊢
  generalize 256 ^ m.length = k at hm ⊢
  split
  · rw [Int.emod_eq_of_lt (by omega) (by omega)]
    rfl
  · rw [Int.sub_emod_right, Int.emod_eq_of_lt (by omega) (by omega)]
    rfl

theorem signed16_readInt {m : List Byte} (h : m.length = 2) : signed16 (readInt m) = m := by
  rw [signed16, ofInt_readInt (by rw [h]; rfl), be16_readNat h]

theorem tableInt24_readInt {m : List Byte} (h : m.length = 3) : tableInt24 (readInt m) = m := by
  rw [tableInt24, ofInt_readInt (by rw [h]; rfl), be24_readNat h]

/-! ### Fields cut out of bytes -/

/-- The fields of the given widths, one after another, from an offset on. -/
def cutFields (l : List Byte) (o : Nat) : List Nat → List Byte
  | [] => []
  | w :: rest => (l.drop o).take w ++ cutFields l (o + w) rest

theorem cutFields_rest (l : List Byte) (o : Nat) (widths : List Nat) :
    cutFields l o widths ++ l.drop (o + widths.sum) = l.drop o := by
  induction widths generalizing o with
  | nil => rfl
  | cons w rest ih =>
    rw [cutFields, List.sum_cons, ← Nat.add_assoc, List.append_assoc, ih, ← List.drop_drop]
    exact List.take_append_drop w (l.drop o)

/-- Fields that take up all the bytes are the bytes. -/
theorem cutFields_all {l : List Byte} {widths : List Nat} (h : l.length = widths.sum) : cutFields l 0 widths = l := by
  have all := cutFields_rest l 0 widths
  rwa [Nat.zero_add, ← h, List.drop_length, List.append_nil] at all

section
variable {l : List Byte} {o : Nat}

theorem cut_piece_length {w : Nat} (h : o + w ≤ l.length) : ((l.drop o).take w).length = w := by
  rw [List.length_take, List.length_drop]
  omega

theorem be8_field (h : o + 1 ≤ l.length) : be8 (field l o 1) = (l.drop o).take 1 := be8_readNat (cut_piece_length h)
theorem be16_field (h : o + 2 ≤ l.length) : be16 (field l o 2) = (l.drop o).take 2 := be16_readNat (cut_piece_length h)
theorem be24_field (h : o + 3 ≤ l.length) : be24 (field l o 3) = (l.drop o).take 3 := be24_readNat (cut_piece_length h)
theorem signed16_field (h : o + 2 ≤ l.length) : signed16 (fieldInt l o 2) = (l.drop o).take 2 :=
  signed16_readInt (cut_piece_length h)
theorem tableInt24_field (h : o + 3 ≤ l.length) : tableInt24 (fieldInt l o 3) = (l.drop o).take 3 :=
  tableInt24_readInt (cut_piece_length h)

end

/-! ### Codes of names -/

theorem getD_of_getElem? {α : Type} {l : List (Option α)} {i : Nat} {x : α} (h : l[i]? = some (some x)) :
    l.getD i none = some x := by rw [List.getD_eq_getElem?_getD, h]; rfl

theorem getElem?_of_getD {α : Type} {l : List (Option α)} {i : Nat} {x : α} (h : l.getD i none = some x) :
    l[i]? = some (some x) := by
  rw [List.getD_eq_getElem?_getD] at h
  cases e : l[i]? with
  | none => rw [e] at h; exact nomatch h
  | some y => rw [e] at h; exact congrArg some h

/-- A code that counts the names of a list gives back the place it was read from. -/
theorem code_getElem? {α : Type} {names : List α} {code : α → Nat} (h : names.map code = List.range names.length)
    {n : Nat} {x : α} (hx : names[n]? = some x) : code x = n := by
  obtain ⟨hn, -⟩ := List.getElem?_eq_some_iff.mp hx
  have hc : (names.map code)[n]? = some (code x) := by rw [List.getElem?_map, hx]; rfl
  rw [h, List.getElem?_range hn] at hc
  exact (Option.some_inj.mp hc).symm

theorem roleCode_roleOf {n : Nat} {r : Role} (h : roleOf n = some r) : roleCode r = n := code_getElem? (by rfl) h
theorem tableCode_tableOf {n : Nat} {t : Table} (h : tableOf n = some t) : tableCode t = n := code_getElem? (by rfl) h
theorem quantityCode_quantityOf {n : Nat} {q : Quantity} (h : quantityOf n = some q) : quantityCode q = n :=
  code_getElem? (by rfl) h
theorem cadenceCode_cadenceOf {n : Nat} {c : Cadence} (h : cadenceOf n = some c) : cadenceCode c = n :=
  code_getElem? (by rfl) h
theorem dispositionCode_dispositionOf {n : Nat} {d : Disposition} (h : dispositionOf n = some d) :
    dispositionCode d = n := code_getElem? (by rfl) h

/-- Step kinds and timeout actions are coded from 1 on, code 0 naming none. -/
theorem stepKindCode_stepKindOf {n : Nat} {k : StepKind} (h : stepKindOf n = some k) : stepKindCode k = n :=
  code_getElem? (code := fun o : Option StepKind => o.elim 0 stepKindCode) (by rfl) (getElem?_of_getD h)
theorem actionCode_actionOf {n : Nat} {a : TimeoutAction} (h : actionOf n = some a) : actionCode a = n :=
  code_getElem? (code := fun o : Option TimeoutAction => o.elim 0 actionCode) (by rfl) (getElem?_of_getD h)

theorem flagByte_boolOf {n : Nat} {b : Bool} (h : boolOf n = some b) : flagByte b = be8 n := by
  rw [← code_getElem? (code := fun b : Bool => if b then 1 else 0) (by rfl) h]
  cases b <;> rfl

/-! ### Entries (section 11.5) -/

/-- The number of field bytes of a full entry, after its present byte. -/
def fieldsLength (t : Table) (l : List Byte) : Nat :=
  match t with
  | .headDirectory => 3 | .channelMap => 9 | .calibration => 7 + 5 * field l 0 1 | .classLimits => 30
  | .testPlan => 8 | .startRules => 3 | .laneSettings => 25

theorem entryLength_full (t : Table) {b : Byte} (h : b ≠ 0) (l : List Byte) :
    entryLength t (b :: l) = fieldsLength t l + 1 := by
  have full : ¬ (b :: l).head? = some 0 := fun e => h (Option.some_inj.mp e)
  refine (if_neg full).trans ?_
  cases t with
  | calibration =>
    show 8 + 5 * field l 0 1 = 7 + 5 * field l 0 1 + 1
    omega
  | _ => rfl

/-- The field bytes that a parse takes are those its entry is encoded in. -/
def ReadsBack (t : Table) {α : Type} (parse : List Byte → Option α) (enc : α → List Byte) : Prop :=
  ∀ (l : List Byte) (x : α), parse l = some x → l.length = fieldsLength t l → enc x = l

theorem head_readsBack : ReadsBack .headDirectory parseHead encodeHead := by
  intro l x h hl
  have hl : l.length = 3 := hl
  simp only [parseHead, Option.bind_eq_some_iff, Option.ite_none_right_eq_some] at h
  obtain ⟨role, hr, enabled, he, -, h⟩ := h
  cases h
  calc _ = cutFields l 0 [1, 1, 1] := by
        simp (disch := omega) only [encodeHead, roleCode_roleOf hr, flagByte_boolOf he, be8_field, cutFields,
          List.append_assoc, List.append_nil]
    _ = l := cutFields_all hl

theorem map_readsBack : ReadsBack .channelMap parseMap encodeMap := by
  intro l x h hl
  have hl : l.length = 9 := hl
  simp only [parseMap, Option.bind_eq_some_iff, Option.ite_none_right_eq_some] at h
  obtain ⟨quantity, hq, cadence, hc, tareable, ht, disposition, hd, -, h⟩ := h
  cases h
  calc _ = cutFields l 0 [1, 1, 1, 1, 1, 1, 1, 1, 1] := by
        simp (disch := omega) only [encodeMap, quantityCode_quantityOf hq, cadenceCode_cadenceOf hc, flagByte_boolOf ht,
          dispositionCode_dispositionOf hd, be8_field, cutFields, List.append_assoc, List.append_nil]
    _ = l := cutFields_all hl

theorem points_length (m : Nat) (l : List Byte) : (parsePoints m l).length = m := by
  induction m generalizing l with
  | zero => rfl
  | succ m ih => rw [parsePoints, List.length_cons, ih]

theorem points_readBack {m : Nat} {l : List Byte} (h : l.length = 5 * m) :
    (parsePoints m l).flatMap (fun p => signed16 p.1 ++ tableInt24 p.2) = l := by
  induction m generalizing l with
  | zero => exact (List.eq_nil_of_length_eq_zero h).symm
  | succ m ih =>
    rw [parsePoints, List.flatMap_cons, ih (by rw [List.length_drop]; omega)]
    simp (disch := omega) only [signed16_field, tableInt24_field, List.drop_zero]
    rw [← List.take_add]
    exact List.take_append_drop 5 l

theorem cal_readsBack : ReadsBack .calibration parseCal encodeCal := by
  intro l x h hl
  have hl : l.length = 7 + 5 * field l 0 1 := hl
  simp only [parseCal, Option.ite_none_right_eq_some] at h
  obtain ⟨-, h⟩ := h
  cases h
  calc _ = cutFields l 0 [1, 3, 3] ++ l.drop 7 := by
        simp (disch := omega) only [encodeCal, points_length, be8_field, tableInt24_field, cutFields, List.append_assoc,
          List.append_nil]
        rw [points_readBack (by rw [List.length_drop, hl]; omega)]
    _ = l := cutFields_rest l 0 [1, 3, 3]

theorem class_readsBack : ReadsBack .classLimits parseClass encodeClass := by
  intro l x h hl
  have hl : l.length = 30 := hl
  simp only [parseClass, Option.ite_none_right_eq_some] at h
  obtain ⟨-, h⟩ := h
  cases h
  calc _ = cutFields l 0 [2, 2, 2, 2, 2, 2, 1, 3, 3, 1, 3, 3, 1, 2, 1] := by
        simp (disch := omega) only [encodeClass, Int.toNat_natCast, be8_field, be16_field, be24_field, cutFields,
          List.append_assoc, List.append_nil]
    _ = l := cutFields_all hl

theorem step_readsBack : ReadsBack .testPlan parseStep encodeStep := by
  intro l x h hl
  have hl : l.length = 8 := hl
  simp only [parseStep, Option.bind_eq_some_iff, Option.ite_none_right_eq_some] at h
  obtain ⟨kind, hk, action, ha, park, hp, -, h⟩ := h
  cases h
  have message : [BitVec.ofNat 8 (field l 1 1)] = (l.drop 1).take 1 := be8_field (by omega)
  calc _ = cutFields l 0 [1, 1, 3, 1, 1, 1] := by
        simp (disch := omega) only [encodeStep, stepKindCode_stepKindOf hk, actionCode_actionOf ha, flagByte_boolOf hp,
          message, be8_field, be24_field, cutFields, List.append_assoc, List.append_nil]
    _ = l := cutFields_all hl

theorem rule_readsBack : ReadsBack .startRules parseRule encodeRule := by
  intro l x h hl
  have hl : l.length = 3 := hl
  simp only [parseRule, Option.ite_none_right_eq_some] at h
  obtain ⟨-, h⟩ := h
  cases h
  calc _ = cutFields l 0 [3] := by
        simp (disch := omega) only [encodeRule, be24_field, cutFields, List.append_nil]
    _ = l := cutFields_all hl

/-- Two enables make up a byte of at most 3 (R52). -/
theorem enables_byte {n : Nat} (h : n ≤ 3) :
    (if n % 2 == 1 then 1 else 0) + (if n / 2 == 1 then 2 else 0) = n := by
  interval_cases n <;> rfl

theorem settings_readsBack : ReadsBack .laneSettings parseSettings encodeSettings := by
  intro l x h hl
  have hl : l.length = 25 := hl
  simp only [parseSettings, Option.ite_none_right_eq_some] at h
  obtain ⟨ranges, h⟩ := h
  cases h
  have enables : field l 23 1 ≤ 3 := by
    simp only [Bool.and_eq_true, inRange, decide_eq_true_eq] at ranges
    obtain ⟨⟨-, -, enables⟩, -⟩ := ranges
    exact enables
  calc _ = cutFields l 0 [2, 2, 2, 2, 2, 2, 2, 1, 1, 2, 2, 2, 1, 1, 1] := by
        simp (disch := omega) only [encodeSettings, Option.getD_some, Int.toNat_natCast, enables_byte enables,
          be8_field, be16_field, cutFields, List.append_assoc, List.append_nil]
    _ = l := cutFields_all hl

end Sys2Proof.Machine
end

section
/-! The tables written and read back (R51 to R53): each table as a list of entries with its encoding. -/

namespace Sys2Proof.Machine

/-! ### Entries of a request -/

theorem fieldsLength_take (t : Table) (l : List Byte) :
    fieldsLength t (l.take (fieldsLength t l)) = fieldsLength t l := by
  cases t with
  | calibration =>
    show 7 + 5 * field (l.take (7 + 5 * field l 0 1)) 0 1 = 7 + 5 * field l 0 1
    have count : field (l.take (7 + 5 * field l 0 1)) 0 1 = field l 0 1 := by
      rw [field, List.drop_zero, List.take_take, Nat.min_eq_left (by omega), field, List.drop_zero]
    rw [count]
  | _ => rfl

/-- An entry cut off by its length has that length itself. -/
theorem entryLength_take (t : Table) (l : List Byte) : entryLength t (l.take (entryLength t l)) = entryLength t l := by
  cases l with
  | nil => rw [List.take_nil]
  | cons b rest =>
    by_cases hb : b = 0
    · rw [hb]
      rfl
    · rw [entryLength_full t hb, List.take_succ_cons, entryLength_full t hb, fieldsLength_take]

/-- As many entries are cut off a request as it announces (R181). -/
theorem splitEntries_length {t : Table} {k : Nat} {l : List Byte} {parts : List (List Byte)}
    (h : splitEntries t k l = some parts) : parts.length = k := by
  induction k generalizing l parts with
  | zero =>
    rw [splitEntries] at h
    split at h
    · cases h
      rfl
    · cases h
  | succ k ih =>
    rw [splitEntries] at h
    split at h
    · obtain ⟨rest, hr, rfl⟩ := Option.map_eq_some_iff.mp h
      rw [List.length_cons, ih hr]
    · cases h

/-- The entries cut off a request make up its bytes, and each has the length its head gives it (R181). -/
theorem splitEntries_parts {t : Table} {k : Nat} {l : List Byte} {parts : List (List Byte)}
    (h : splitEntries t k l = some parts) : parts.flatten = l ∧ ∀ p ∈ parts, p.length = entryLength t p := by
  induction k generalizing l parts with
  | zero =>
    rw [splitEntries] at h
    split at h
    next empty =>
      cases h
      exact ⟨(List.isEmpty_iff.mp empty).symm, fun p hp => absurd hp List.not_mem_nil⟩
    · cases h
  | succ k ih =>
    rw [splitEntries] at h
    split at h
    next fits =>
      obtain ⟨rest, hr, rfl⟩ := Option.map_eq_some_iff.mp h
      obtain ⟨flat, lengths⟩ := ih hr
      refine ⟨?_, fun p hp => ?_⟩
      · rw [List.flatten_cons, flat, List.take_append_drop]
      · rcases List.mem_cons.mp hp with rfl | hp
        · rw [entryLength_take, List.length_take, Nat.min_eq_left fits]
        · exact lengths p hp
    · cases h

/-- An entry that is taken is encoded in the bytes it was sent in. -/
theorem entry_readsBack {t : Table} {α : Type} {parse : List Byte → Option α} {enc : α → List Byte}
    (h : ReadsBack t parse enc) {p : List Byte} {e : Option α} (hp : p.length = entryLength t p)
    (he : parseEntry parse p = some e) : encodeEntry enc e = p := by
  cases p with
  | nil => cases he
  | cons b rest =>
    rw [parseEntry] at he
    split at he
    next zero =>
      cases he
      subst zero
      have none : rest.length = 0 := Nat.succ_injective hp
      rw [List.eq_nil_of_length_eq_zero none]
      rfl
    next =>
      split at he
      next one =>
        subst one
        obtain ⟨x, hx, rfl⟩ := Option.map_eq_some_iff.mp he
        rw [entryLength_full t (by decide), List.length_cons] at hp
        exact congrArg (1 :: ·) (h rest x hx (Nat.succ_injective hp))
      · cases he

theorem entries_readBack {t : Table} {α : Type} {parse : List Byte → Option α} {enc : α → List Byte}
    (h : ReadsBack t parse enc) {i : Nat} {parts : List (List Byte)} {es : List (Option α)}
    (hp : ∀ p ∈ parts, p.length = entryLength t p) (he : parseEntries parse i parts = .inr es) :
    es.length = parts.length ∧ es.flatMap (encodeEntry enc) = parts.flatten := by
  induction parts generalizing i es with
  | nil =>
    cases he
    exact ⟨rfl, rfl⟩
  | cons p rest ih =>
    rw [parseEntries] at he
    cases hx : parseEntry parse p with
    | none => rw [hx] at he; cases he
    | some x =>
      rw [hx] at he
      dsimp only at he
      cases hr : parseEntries parse (i + 1) rest with
      | inl k => rw [hr] at he; cases he
      | inr xs =>
        rw [hr] at he
        cases he
        obtain ⟨length, flat⟩ := ih (fun q hq => hp q (List.mem_cons_of_mem p hq)) hr
        refine ⟨congrArg (· + 1) length, ?_⟩
        rw [List.flatMap_cons, List.flatten_cons, flat, entry_readsBack h (hp p List.mem_cons_self) hx]

/-! ### A run written over a table -/

section
variable {α : Type} {old new : List α} {first : Nat}

theorem writeSlice_length (h : first + new.length ≤ old.length) : (writeSlice old first new).length = old.length := by
  simp only [writeSlice, List.length_append, List.length_take, List.length_drop]
  omega

theorem writeSlice_run (h : first + new.length ≤ old.length) :
    ((writeSlice old first new).drop first).take new.length = new := by
  have start : (old.take first).length = first := List.length_take_of_le (by omega)
  rw [writeSlice, List.append_assoc, List.drop_left' start, List.take_left' rfl]

theorem writeSlice_again (h : first + new.length ≤ old.length) :
    writeSlice (writeSlice old first new) first new = writeSlice old first new := by
  have start : (old.take first).length = first := List.length_take_of_le (by omega)
  have before : (writeSlice old first new).take first = old.take first := by
    rw [writeSlice, List.append_assoc, List.take_left' start]
  have after : (writeSlice old first new).drop (first + new.length) = old.drop (first + new.length) := by
    rw [writeSlice, List.drop_left' (by rw [List.length_append, start])]
  rw [writeSlice, before, after, writeSlice]

theorem writeSlice_outside (h : first + new.length ≤ old.length) {j : Nat} (hj : j < first ∨ first + new.length ≤ j) :
    ((writeSlice old first new).drop j).take 1 = (old.drop j).take 1 := by
  have start : (old.take first).length = first := List.length_take_of_le (by omega)
  have same : (writeSlice old first new)[j]? = old[j]? := by
    rcases hj with hj | hj
    · rw [writeSlice, List.append_assoc, List.getElem?_append_left (by omega), List.getElem?_take_of_lt hj]
    · rw [writeSlice, List.getElem?_append_right (by rw [List.length_append]; omega), List.getElem?_drop,
        List.length_append, start, Nat.add_sub_cancel' hj]
  rw [List.take_one, List.take_one, List.head?_drop, List.head?_drop, same]

end

/-! ### The seven tables -/

/-- What an entry of a table holds. -/
def Table.Entry : Table → Type
  | .headDirectory => HeadEntry | .channelMap => MapEntry | .calibration => CalEntry | .classLimits => ClassLimits
  | .testPlan => PlanStep | .startRules => Nat | .laneSettings => LaneSettings

/-- A table's parse of an entry's field bytes. -/
def Table.parse : (t : Table) → List Byte → Option t.Entry
  | .headDirectory => parseHead | .channelMap => parseMap | .calibration => parseCal | .classLimits => parseClass
  | .testPlan => parseStep | .startRules => parseRule | .laneSettings => parseSettings

/-- A table's encoding of an entry. -/
def Table.encode : (t : Table) → t.Entry → List Byte
  | .headDirectory => encodeHead | .channelMap => encodeMap | .calibration => encodeCal | .classLimits => encodeClass
  | .testPlan => encodeStep | .startRules => encodeRule | .laneSettings => encodeSettings

/-- The entries of a table in a bank; the Lane Settings are a table of one. -/
def Bank.entries (b : Bank) : (t : Table) → List (Option t.Entry)
  | .headDirectory => b.directory | .channelMap => b.channels | .calibration => b.calibration
  | .classLimits => b.classes | .testPlan => b.plans | .startRules => b.startRules | .laneSettings => [b.settings]

/-- A bank with the entries of a table replaced. -/
def Bank.put (b : Bank) : (t : Table) → List (Option t.Entry) → Bank
  | .headDirectory, l => { b with directory := l }
  | .channelMap, l => { b with channels := l }
  | .calibration, l => { b with calibration := l }
  | .classLimits, l => { b with classes := l }
  | .testPlan, l => { b with plans := l }
  | .startRules, l => { b with startRules := l }
  | .laneSettings, l => { b with settings := List.headD l none }

theorem Table.readsBack (t : Table) : ReadsBack t t.parse t.encode := by
  cases t with
  | headDirectory => exact head_readsBack
  | channelMap => exact map_readsBack
  | calibration => exact cal_readsBack
  | classLimits => exact class_readsBack
  | testPlan => exact step_readsBack
  | startRules => exact rule_readsBack
  | laneSettings => exact settings_readsBack

/-- A TABLE_READ is the encoding of a run of the entries (R53). -/
theorem readTable_eq (b : Bank) (t : Table) (first count : Nat) :
    readTable b t first count = (((b.entries t).drop first).take count).flatMap (encodeEntry t.encode) := by
  cases t <;> rfl

/-- A TABLE_WRITE puts a run of parsed entries over the table (R51). -/
theorem writeTable_eq (b : Bank) (t : Table) (first : Nat) (parts : List (List Byte)) :
    writeTable b t first parts =
      (parseEntries t.parse first parts).map id fun es => b.put t (writeSlice (b.entries t) first es) := by
  cases t <;> rfl

theorem put_put (b : Bank) (t : Table) (l m : List (Option t.Entry)) : (b.put t l).put t m = b.put t m := by
  cases t <;> rfl

theorem entries_put {b : Bank} {t : Table} {l : List (Option t.Entry)} (h : l.length = (b.entries t).length) :
    (b.put t l).entries t = l := by
  cases t with
  | laneSettings =>
    obtain ⟨x, rfl⟩ := List.length_eq_one_iff.mp h
    rfl
  | _ => rfl

theorem entries_put_other {b : Bank} {t u : Table} (h : u ≠ t) (l : List (Option t.Entry)) :
    (b.put t l).entries u = b.entries u := by
  cases t <;> cases u <;> first | rfl | exact absurd rfl h

/-- Every table of the bank has its full number of entries (03, section 3.1). -/
theorem entries_length {b : Bank} (hd : b.directory.length = 16) (hm : b.channels.length = 64)
    (hc : b.calibration.length = 32) (hl : b.classes.length = 8) (hp : b.plans.length = 192)
    (hr : b.startRules.length = 4) (t : Table) : (b.entries t).length = entryCount t := by
  cases t with
  | headDirectory => exact hd
  | channelMap => exact hm
  | calibration => exact hc
  | classLimits => exact hl
  | testPlan => exact hp
  | startRules => exact hr
  | laneSettings => rfl

/-- Settles O18: the parsed run encodes to the bytes of the request, stands in the table where it was put, and leaves
every other entry and table as it was. -/
theorem tableReadsBackAsWritten : Obligations.TableReadsBackAsWritten := by
  unfold Obligations.TableReadsBackAsWritten
  intro b c t first bytes parts hd hm hc hl hp hr _ range split write
  rw [writeTable_eq] at write
  cases parsed : parseEntries t.parse first parts with
  | inl i => rw [parsed] at write; cases write
  | inr es =>
    rw [parsed] at write
    cases write
    obtain ⟨flat, lengths⟩ := splitEntries_parts split
    obtain ⟨count, encoded⟩ := entries_readBack t.readsBack lengths parsed
    have fits : first + es.length ≤ (b.entries t).length := by
      rw [count, entries_length hd hm hc hl hp hr]
      exact range
    have now : (b.put t (writeSlice (b.entries t) first es)).entries t = writeSlice (b.entries t) first es :=
      entries_put (writeSlice_length fits)
    refine ⟨?_, ?_, fun u j hu => ?_⟩
    · rw [readTable_eq, now, ← count, writeSlice_run fits, encoded, flat]
    · rw [writeTable_eq, parsed]
      refine congrArg Sum.inr ((put_put _ _ _ _).trans ?_)
      rw [now, writeSlice_again fits]
    · rw [readTable_eq, readTable_eq]
      by_cases h : u = t
      · subst h
        rw [now, writeSlice_outside fits (by rw [count]; exact hu.resolve_left (fun ne => ne rfl))]
      · rw [entries_put_other h]

end Sys2Proof.Machine
end

section
/-! TABLE_WRITE (R51, R181). -/

namespace Sys2Proof.Machine

/-! ### TABLE_WRITE (R51) -/

theorem exec_tableWrite {s : State} {f : Frame} {content : List Byte} (h : s.asks f (0x01 :: content)) :
    exec .tableWrite s = .next (takeTableWrite f.src.toNat content (s.dropFirst .station)) :=
  congrArg Host.Outcome.next (onRequest_asks h takeTableWrite)

/-- A TABLE_WRITE of a good form, for a table that exists, is judged by its range and its entries. -/
theorem takeTableWrite_formed {src : Nat} {tb first count : Byte} {bytes : List Byte} {t : Table}
    {parts : List (List Byte)} {s : State} (ht : tableOf tb.toNat = some t)
    (hp : splitEntries t count.toNat bytes = some parts) :
    takeTableWrite src (tb :: first :: count :: bytes) s = tableWrite src t first.toNat parts s := by
  have form : ¬ (tb :: first :: count :: bytes).length < 3 := by
    simp only [List.length_cons]
    omega
  have count' : splitEntries t (field (tb :: first :: count :: bytes) 2 1) ((tb :: first :: count :: bytes).drop 3) =
      some parts := by
    rw [field_one]
    exact hp
  have table : tableOf (field (tb :: first :: count :: bytes) 0 1) = some t := by
    rw [field_one]
    exact ht
  have start : field (tb :: first :: count :: bytes) 1 1 = first.toNat := field_one _ 1
  simp only [takeTableWrite, if_neg form, table, count', start]

theorem tableWrite_pending {src : Nat} {t : Table} {first : Nat} {parts : List (List Byte)} {s : State}
    (h : s.banks.switchPending = true) : tableWrite src t first parts s = reply src 0x01 5 [] s := if_pos h

theorem tableWrite_badRange {src : Nat} {t : Table} {first : Nat} {parts : List (List Byte)} {s : State}
    (h : s.banks.switchPending = false) (hr : parts.length = 0 ∨ entryCount t < first + parts.length) :
    tableWrite src t first parts s = reply src 0x01 3 [2] s := by
  have range : (parts.isEmpty || decide (entryCount t < first + parts.length)) = true := by
    rw [Bool.or_eq_true, List.isEmpty_iff_length_eq_zero, decide_eq_true_eq]
    exact hr
  rw [tableWrite, if_neg (by rw [h]; exact Bool.false_ne_true), if_pos range]
  rfl

theorem tableWrite_inRange {src : Nat} {t : Table} {first : Nat} {parts : List (List Byte)} {s : State}
    (h : s.banks.switchPending = false) (hn : parts.length ≠ 0) (hr : first + parts.length ≤ entryCount t) :
    (∀ i, writeTable s.shadow t first parts = .inl i →
      tableWrite src t first parts s = reply src 0x01 3 [2, BitVec.ofNat 8 i] s) ∧
    (∀ b, writeTable s.shadow t first parts = .inr b → tableWrite src t first parts s =
      reply src 0x01 0 [] { s with shadow := b, banks := { s.banks with modified := true } }) := by
  have range : ¬ (parts.isEmpty || decide (entryCount t < first + parts.length)) = true := by
    rw [Bool.or_eq_true, List.isEmpty_iff_length_eq_zero, decide_eq_true_eq]
    omega
  unfold tableWrite
  rw [if_neg (by rw [h]; exact Bool.false_ne_true), if_neg range]
  exact ⟨fun i e => by rw [e]; rfl, fun b e => by rw [e]; rfl⟩

/-- Settles O17: the form, the pending switch, the range, and the entries, in the order R51 and R181 take them. -/
theorem tableWriteTaken : Obligations.TableWriteTaken := by
  unfold Obligations.TableWriteTaken
  intro f tb first count bytes t parts s h ht hp
  have run : exec .tableWrite s = .next (tableWrite f.src.toNat t first.toNat parts (s.dropFirst .station)) :=
    (exec_tableWrite h).trans (congrArg Host.Outcome.next (takeTableWrite_formed ht hp))
  have length : parts.length = count.toNat := splitEntries_length hp
  have zero : count = 0 ↔ count.toNat = 0 := BitVec.toNat_inj.symm
  refine ⟨fun pending => ?_, fun free bad => ?_, fun free some range => ?_⟩
  · rw [run, tableWrite_pending (by exact pending)]
  · rw [run, tableWrite_badRange (by exact free) (by rw [length, ← zero]; exact bad)]
  · obtain ⟨wanting, written⟩ := tableWrite_inRange (src := f.src.toNat) (s := s.dropFirst .station) free
      (by rw [length]; exact fun e => some (zero.mpr e)) (by rw [length]; exact range)
    exact ⟨fun i e => run.trans (congrArg Host.Outcome.next (wanting i e)),
      fun b e => run.trans (congrArg Host.Outcome.next (written b e))⟩

end Sys2Proof.Machine
end

section
/-! The reads of the tables, of their registers and of the part's status (R53, R63, R176), and the switches that wait,
fail or are cancelled (R55, R56, R59). -/

namespace Sys2Proof.Machine

/-! ### TABLE_READ (R53) -/

theorem exec_tableRead {s : State} {f : Frame} {content : List Byte} (h : s.asks f (0x02 :: content)) :
    exec .tableRead s = .next (takeTableRead f.src.toNat content (s.dropFirst .station)) :=
  congrArg Host.Outcome.next (onRequest_asks h takeTableRead)

theorem bankOf_flag (s : State) (bank : Bool) :
    bankOf s (if bank then 1 else 0 : Byte).toNat = some (if bank then s.shadow else s.working) := by
  cases bank <;> rfl

/-- A TABLE_READ of a good form, for a table that exists, is judged by its range and by its length. -/
theorem takeTableRead_formed {src : Nat} {bank : Bool} {tb first count : Byte} {t : Table} {s : State}
    (ht : tableOf tb.toNat = some t) {entries : List Byte}
    (he : readTable (if bank then s.shadow else s.working) t first.toNat count.toNat = entries) :
    takeTableRead src [if bank then 1 else 0, tb, first, count] s =
      if count = 0 ∨ entryCount t < first.toNat + count.toNat ∨ 113 < entries.length then reply src 0x02 3 [2] s
      else reply src 0x02 0 (word16 s.banks.generation ++ [tb, first, count] ++ entries) s := by
  have zero : count.toNat = 0 ↔ count = 0 := BitVec.toNat_inj (y := 0)
  have code : BitVec.ofNat 8 (tableCode t) = tb := by rw [tableCode_tableOf ht, BitVec.ofNat_toNat, BitVec.setWidth_eq]
  have bankField : field [if bank then 1 else 0, tb, first, count] 0 1 = (if bank then 1 else 0 : Byte).toNat :=
    field_one _ 0
  have tableField : field [if bank then 1 else 0, tb, first, count] 1 1 = tb.toNat := field_one _ 1
  have firstField : field [if bank then 1 else 0, tb, first, count] 2 1 = first.toNat := field_one _ 2
  have countField : field [if bank then 1 else 0, tb, first, count] 3 1 = count.toNat := field_one _ 3
  have length : ¬ [if bank then 1 else 0, tb, first, count].length ≠ 4 := fun h => h rfl
  simp only [takeTableRead, if_neg length, bankField, tableField, firstField, countField, bankOf_flag, ht, he, zero]
  refine ite_congr rfl (fun _ => rfl) fun _ => ?_
  simp only [be8, code, BitVec.ofNat_toNat, BitVec.setWidth_eq, List.append_assoc, List.cons_append, List.nil_append]
  rfl

/-! ### BANK_STATUS and STATUS_READ (R63, R176) -/

theorem exec_bankStatus {s : State} {f : Frame} (h : s.asks f [0x04]) :
    exec .bankStatus s = .next (takeBankStatus f.src.toNat [] (s.dropFirst .station)) :=
  congrArg Host.Outcome.next (onRequest_asks h takeBankStatus)

theorem takeBankStatus_formed (src : Nat) (s : State) : takeBankStatus src [] s =
    reply src 0x04 0 ((if s.banks.valid then 1 else 0) :: (word16 s.banks.generation ++
      [if s.banks.switchPending then 1 else 0, if s.banks.modified then 1 else 0] ++ lastFields s.banks.last)) s := by
  rw [takeBankStatus, if_neg (fun h => h rfl)]
  simp only [flagByte, List.append_assoc, List.cons_append, List.nil_append]
  rfl

theorem exec_statusRead {s : State} {f : Frame} {content : List Byte} (h : s.asks f (0x0C :: content)) :
    exec .statusRead s = .next (takeStatusRead f.src.toNat content (s.dropFirst .station)) :=
  congrArg Host.Outcome.next (onRequest_asks h takeStatusRead)

theorem takeStatusRead_formed (src : Nat) (sec first count : Byte) (s : State) :
    (∀ body, statusSection s sec.toNat first.toNat count.toNat = some body →
      takeStatusRead src [sec, first, count] s = reply src 0x0C 0 body s) ∧
    (statusSection s sec.toNat first.toNat count.toNat = none →
      takeStatusRead src [sec, first, count] s = reply src 0x0C 3 [2] s) := by
  have secField : field [sec, first, count] 0 1 = sec.toNat := field_one _ 0
  have firstField : field [sec, first, count] 1 1 = first.toNat := field_one _ 1
  have countField : field [sec, first, count] 2 1 = count.toNat := field_one _ 2
  have length : ¬ [sec, first, count].length ≠ 3 := fun h => h rfl
  unfold takeStatusRead
  rw [if_neg length, secField, firstField, countField]
  exact ⟨fun body e => by rw [e]; rfl, fun e => by rw [e]; rfl⟩

/-- No section tells what stands in the receive FIFO (R176). -/
theorem statusSection_dropFirst (s : State) (sec first count : Nat) :
    statusSection (s.dropFirst .station) sec first count = statusSection s sec first count := rfl

/-- Settles O19: each read is its reply. -/
theorem readsAnswered : Obligations.ReadsAnswered := by
  unfold Obligations.ReadsAnswered
  refine fun f s => ⟨fun bank tb first count t h ht => ?_, fun h => ?_, fun sec first count h => ?_⟩
  · exact (exec_tableRead h).trans (congrArg Host.Outcome.next (takeTableRead_formed ht rfl))
  · exact (exec_bankStatus h).trans (congrArg Host.Outcome.next (takeBankStatus_formed _ _))
  · obtain ⟨answered, refused⟩ := takeStatusRead_formed f.src.toNat sec first count (s.dropFirst .station)
    rw [exec_statusRead h]
    rw [statusSection_dropFirst] at answered refused
    cases e : statusSection s sec.toNat first.toNat count.toNat with
    | some body => rw [answered body e]
    | none => rw [refused e]

/-! ### BANK_SWITCH (R55, R56, R59) -/

theorem applyRequest_pending {src : Nat} {s : State} (h : s.banks.switchPending = true) :
    applyRequest src s = reply src 0x03 5 [0] s := if_pos h

theorem applyRequest_refused {src : Nat} {s : State} (h : s.banks.switchPending = false) (hv : s.vehicle = none)
    (ho : s.lane.state ≠ .off) (hi : s.lane.state ≠ .idle) (hm : s.lane.state ≠ .manual) :
    applyRequest src s = reply src 0x03 2 [] s := by
  simp [applyRequest, h, hv, ho, hi, hm, statusRefused]

/-- A switch that is allowed is judged by the validation of the shadow bank (R55). -/
theorem applyRequest_judged {src : Nat} {s : State} (h : s.banks.switchPending = false)
    (ha : s.vehicle.isSome = true ∨ s.lane.state = .off ∨ s.lane.state = .idle ∨ s.lane.state = .manual) :
    (∀ x, validate s.shadow = some x →
      applyRequest src s = reply src 0x03 4 (failureFields x) (setLast (.failed x) s)) ∧
    (validate s.shadow = none → s.vehicle.isSome = true → applyRequest src s =
      reply src 0x03 5 [1] { s with banks := { s.banks with last := .passed, switchPending := true } }) := by
  have allowed : ¬ (s.vehicle.isNone &&
      !(s.lane.state == .off || s.lane.state == .idle || s.lane.state == .manual)) = true := by
    simp only [Bool.and_eq_true, Bool.not_eq_true', Bool.or_eq_false_iff, beq_eq_false_iff_ne,
      Option.isNone_iff_eq_none]
    rintro ⟨none, ⟨off, idle⟩, manual⟩
    rw [none] at ha
    rcases ha with vehicle | is | is | is
    · exact Bool.false_ne_true vehicle
    · exact off is
    · exact idle is
    · exact manual is
  unfold applyRequest
  rw [if_neg (by rw [h]; exact Bool.false_ne_true), if_neg allowed]
  refine ⟨fun x e => by rw [e]; rfl, fun e hv => ?_⟩
  rw [e]
  exact if_pos hv

theorem failureFields_eq (x : Failure) : failureFields x =
    BitVec.ofNat 8 (checkCode x.check) :: BitVec.ofNat 8 (tableCode x.table) ::
      (match x.entry with
        | none => [0]
        | some i => [1, BitVec.ofNat 8 i]) := by
  unfold failureFields optional
  cases x.entry <;> rfl

theorem exec_bankSwitchCancel {s : State} {f : Frame} (h : s.asks f [0x03, 0x02]) :
    exec .bankSwitchCancel s = .next (cancelRequest f.src.toNat (s.dropFirst .station)) :=
  congrArg Host.Outcome.next (onSelected_asks h isAction (oneByte 0x03 0x02 cancelRequest))

/-- The DROPPED notice carries lane time and generation, which the reply before it leaves (R59, R62). -/
theorem cancelRequest_drops {src : Nat} {s : State} (h : s.banks.switchPending = true) : cancelRequest src s =
    notice 0x0A (word32 s.clock.laneTime ++ 1 :: word16 s.banks.generation)
      (reply src 0x03 0 [] { s with banks := { s.banks with switchPending := false } }) := by
  rw [cancelRequest, if_pos h, droppedNotice]
  obtain ⟨x, n, e, -⟩ := reply_only src 0x03 0 [] { s with banks := { s.banks with switchPending := false } }
  have same : reply src 0x03 statusDone [] { s with banks := { s.banks with switchPending := false } } = _ := e
  rw [same, e]
  simp only [be8, List.append_assoc, List.cons_append, List.nil_append]
  rfl

theorem cancelRequest_refused {src : Nat} {s : State} (h : s.banks.switchPending = false) :
    cancelRequest src s = reply src 0x03 2 [] s := if_neg (by rw [h]; exact Bool.false_ne_true)

/-- Settles O21: APPLY by the pending switch, the lane and the validation, and CANCEL by the pending switch. -/
theorem switchWaitsFailsOrIsCancelled : Obligations.SwitchWaitsFailsOrIsCancelled := by
  unfold Obligations.SwitchWaitsFailsOrIsCancelled
  refine fun f s => ⟨fun h free hv hb => ?_, fun h free hv ho hi hm => ?_, fun x h free ha hb => ?_,
    fun h pending => ?_, fun h pending => ?_, fun h free => ?_⟩
  · exact (exec_bankSwitchApply h).trans (congrArg Host.Outcome.next
      ((applyRequest_judged (s := s.dropFirst .station) free (.inl hv)).2 hb hv))
  · exact (exec_bankSwitchApply h).trans (congrArg Host.Outcome.next
      (applyRequest_refused (s := s.dropFirst .station) free hv ho hi hm))
  · rw [exec_bankSwitchApply h, (applyRequest_judged (s := s.dropFirst .station) free ha).1 x hb, failureFields_eq]
    rfl
  · exact (exec_bankSwitchApply h).trans (congrArg Host.Outcome.next
      (applyRequest_pending (s := s.dropFirst .station) pending))
  · exact (exec_bankSwitchCancel h).trans (congrArg Host.Outcome.next
      (cancelRequest_drops (s := s.dropFirst .station) pending))
  · exact (exec_bankSwitchCancel h).trans (congrArg Host.Outcome.next
      (cancelRequest_refused (s := s.dropFirst .station) free))

end Sys2Proof.Machine
end

section
/-! The GO requests that are refused (R50, R66, R83). -/

namespace Sys2Proof.Machine

/-- The handler of a GO request. -/
def goHandler : GoRequest → Nat → State → State
  | .idle => goIdle | .off => goOff | .manual => goManual | .entry => goEntry | .test => goTest
  | .entryToTest => goEntryToTest | .pause => goPause | .resume => goResume

theorem exec_go {g : GoRequest} {s : State} {f : Frame} (h : s.asks f [0x05, BitVec.ofNat 8 (goCode g)]) :
    exec (goInstr g) s = .next (goHandler g f.src.toNat (s.dropFirst .station)) := by
  cases g with
  | idle => exact exec_goIdle h
  | off => exact exec_goOff h
  | manual => exact exec_goManual h
  | entry => exact congrArg Host.Outcome.next (onSelected_asks h isGo (oneByte 0x05 0x04 goEntry))
  | test => exact exec_goTest h
  | entryToTest => exact congrArg Host.Outcome.next (onSelected_asks h isGo (oneByte 0x05 0x06 goEntryToTest))
  | pause => exact congrArg Host.Outcome.next (onSelected_asks h isGo (oneByte 0x05 0x07 goPause))
  | resume => exact congrArg Host.Outcome.next (onSelected_asks h isGo (oneByte 0x05 0x08 goResume))

/-- What bars a GO request: the lane state, an exit wait outside HALTED, or the rule's own condition (R66 to R72,
R83). -/
def goBarred (g : GoRequest) (s : State) : Prop :=
  s.lane.state ∉ goStates g ∨ s.lane.exitWait = true ∧ s.lane.state ≠ .halted ∨
    (g = .off ∨ g = .manual) ∧ s.vehicle.isSome = true ∨ (g = .entry ∨ g = .entryToTest) ∧ s.vehicle = none ∨
    g = .idle ∧ s.rollers.estop = true ∨ g = .resume ∧ s.lane.state = .halted ∧ s.rollers.estop = true

theorem goIdle_invalid {src : Nat} {s : State} (h : s.banks.valid = false) : goIdle src s = reply src 0x05 4 [] s := by
  rw [goIdle, h]
  rfl

theorem goIdle_barred {src : Nat} {s : State} (hv : s.banks.valid = true) (h : goBarred .idle s) :
    goIdle src s = goRefused src s := by
  rw [goIdle, if_neg (by rw [hv]; exact Bool.false_ne_true)]
  refine if_neg fun taken => ?_
  simp only [Bool.and_eq_true, beq_iff_eq, Bool.not_eq_true'] at taken
  obtain ⟨⟨off, released⟩, free⟩ := taken
  simp [goBarred, goStates, off, released, free] at h

theorem goOff_barred {src : Nat} {s : State} (h : goBarred .off s) : goOff src s = goRefused src s := by
  refine if_neg fun taken => ?_
  simp only [Bool.and_eq_true, Bool.or_eq_true, beq_iff_eq, Bool.not_eq_true', Option.isNone_iff_eq_none] at taken
  obtain ⟨⟨state, closed⟩, free⟩ := taken
  simp [goBarred, goStates, state, closed, free] at h

theorem goManual_barred {src : Nat} {s : State} (h : goBarred .manual s) : goManual src s = goRefused src s := by
  refine if_neg fun taken => ?_
  simp only [Bool.and_eq_true, beq_iff_eq, Bool.not_eq_true', Option.isNone_iff_eq_none] at taken
  obtain ⟨⟨state, closed⟩, free⟩ := taken
  simp [goBarred, goStates, state, closed, free] at h

/-- GO_ENTRY and GO_ENTRY_TO_TEST are barred alike (R66). -/
theorem entryTaken_barred {g : GoRequest} {s : State} (hg : g = .entry ∨ g = .entryToTest) (h : goBarred g s) :
    ¬ entryTaken s = true := by
  intro taken
  simp only [entryTaken, Bool.and_eq_true, beq_iff_eq, Bool.not_eq_true'] at taken
  obtain ⟨⟨state, opened⟩, free⟩ := taken
  have some : s.vehicle ≠ none := Option.isSome_iff_ne_none.mp opened
  rcases hg with rfl | rfl
  · simp [goBarred, goStates, state, some, free] at h
  · simp [goBarred, goStates, state, some, free] at h

theorem goTest_barred {src : Nat} {s : State} (h : goBarred .test s) : goTest src s = goRefused src s := by
  refine if_neg fun taken => ?_
  simp only [Bool.and_eq_true, beq_iff_eq, Bool.not_eq_true'] at taken
  obtain ⟨state, free⟩ := taken
  simp [goBarred, goStates, state, free] at h

theorem goPause_barred {src : Nat} {s : State} (h : goBarred .pause s) : goPause src s = goRefused src s := by
  refine if_neg fun taken => ?_
  simp only [Bool.and_eq_true, beq_iff_eq, Bool.not_eq_true'] at taken
  obtain ⟨state, free⟩ := taken
  simp [goBarred, goStates, state, free] at h

theorem goResume_barred {src : Nat} {s : State} (h : goBarred .resume s) : goResume src s = goRefused src s := by
  unfold goResume
  split
  next halted _ =>
    refine if_pos ?_
    simpa [goBarred, goStates, halted] using h
  next pausing =>
    refine if_pos ?_
    simpa [goBarred, goStates, pausing] using h
  next paused =>
    refine if_pos ?_
    simpa [goBarred, goStates, paused] using h
  next => rfl

/-- A barred GO request is refused (R50, R66, R83). -/
theorem goHandler_barred {g : GoRequest} {src : Nat} {s : State} (hv : s.banks.valid = true) (h : goBarred g s) :
    goHandler g src s = goRefused src s := by
  cases g with
  | idle => exact goIdle_barred hv h
  | off => exact goOff_barred h
  | manual => exact goManual_barred h
  | entry => exact if_neg (entryTaken_barred (.inl rfl) h)
  | test => exact goTest_barred h
  | entryToTest => exact if_neg (entryTaken_barred (.inr rfl) h)
  | pause => exact goPause_barred h
  | resume => exact goResume_barred h

/-- Settles O29: GO_IDLE by the validity of the bank, every request by what bars it. -/
theorem goRefusedChangesNothing : Obligations.GoRefusedChangesNothing := by
  unfold Obligations.GoRefusedChangesNothing
  refine fun g f s h => ⟨fun invalid hg => ?_, fun valid barred => ?_⟩
  · subst hg
    exact (exec_goIdle h).trans (congrArg Host.Outcome.next (goIdle_invalid (s := s.dropFirst .station) invalid))
  · exact (exec_go h).trans (congrArg Host.Outcome.next (goHandler_barred (s := s.dropFirst .station) valid barred))

end Sys2Proof.Machine
end

section
/-! What a bank that passes validation promises (R54), check by check. -/

namespace Sys2Proof.Machine

/-! ### Faults and leading steps -/

/-- A list without a fault has none at any index. -/
theorem firstFault_none {α : Type} {l : List α} {bad : Nat → α → Bool} (h : firstFault l bad = none) {i : Nat} {x : α}
    (hx : l[i]? = some x) : bad i x = false := by
  obtain ⟨hi, -⟩ := List.getElem?_eq_some_iff.mp hx
  have fine := List.find?_eq_none.mp h i (List.mem_range.mpr hi)
  rw [hx] at fine
  exact (Bool.not_eq_true _).mp fine

theorem mem_below {α : Type} {l : List (Option α)} {i j : Nat} {x : α} (hi : i < j) (hx : l[i]? = some (some x)) :
    x ∈ below l j :=
  List.mem_filterMap.mpr ⟨some x, List.mem_of_getElem? ((List.getElem?_take_of_lt hi).trans hx), rfl⟩

/-- The entry right after the leading steps is empty, or there is none (R54). -/
theorem leading_stops (l : List (Option PlanStep)) (p : PlanStep) : l[(leading l).length]? ≠ some (some p) := by
  induction l with
  | nil => exact fun h => nomatch h
  | cons e rest ih =>
    cases e with
    | none => exact fun h => nomatch h
    | some q => exact ih

/-- A full entry that does not stand past the end of the leading steps is one of them. -/
theorem planEntries_within {b : Bank} {plan k : Nat} {p : PlanStep} (h : (planEntries b plan)[k]? = some (some p))
    (past : ¬ (planSteps b plan).length < k) : k < (planSteps b plan).length :=
  lt_of_le_of_ne (Nat.not_lt.mp past) fun last => leading_stops (planEntries b plan) p (last ▸ h)

/-! ### The checks (R54) -/

/-- A bank passes when it passes every check. -/
theorem validate_none {b : Bank} : validate b = none ↔
    checkNodes b = none ∧ checkRole b .driveCabinet .driveCabinetCount = none ∧
    checkRole b .display .displayCount = none ∧ (∀ i < 64, checkChannel b i = none) ∧
    (∀ i < 8, checkClass b i = none) ∧ checkSettings b = none := by
  simp only [validate, Option.or_eq_none_iff, List.findSome?_eq_none_iff, List.mem_range]

theorem checkNodes_none {b : Bank} (h : checkNodes b = none) {i j : Nat} {g k : HeadEntry} (hij : i < j)
    (hg : b.directory[i]? = some (some g)) (hk : b.directory[j]? = some (some k)) : g.node ≠ k.node := by
  have fine := firstFault_none (Option.map_eq_none_iff.mp h) hk
  simp only [Option.any_some, List.any_eq_false, beq_iff_eq] at fine
  exact fine g (mem_below hij hg)

theorem checkRole_none {b : Bank} {r : Role} {name : CheckName} (h : checkRole b r name = none) :
    roleCount b r = 1 := by
  by_contra hne
  rw [checkRole, if_neg hne] at h
  exact nomatch h

theorem increasing_pairwise {l : List (Int × Int)} (h : increasing l = true) : l.Pairwise fun p q => p.1 < q.1 := by
  induction l with
  | nil => exact .nil
  | cons p rest ih =>
    cases rest with
    | nil => exact List.pairwise_singleton _ _
    | cons q rest =>
      simp only [increasing, Bool.and_eq_true, decide_eq_true_eq] at h
      obtain ⟨hpq, hrest⟩ := h
      have tail := ih hrest
      refine List.pairwise_cons.mpr ⟨fun r hr => ?_, tail⟩
      rcases List.mem_cons.mp hr with rfl | hr
      · exact hpq
      · exact hpq.trans ((List.pairwise_cons.mp tail).1 r hr)

/-- What check 4 finds of a full Channel Map entry: no entry below it has its key, no enabled one below it its quantity
when it is enabled itself, and its calibration is sound. -/
structure ChannelSound (b : Bank) (i : Nat) (m : MapEntry) : Prop where
  key : ∀ x ∈ below b.channels i, ¬ (x.node = m.node ∧ x.channel = m.channel)
  quantity : enabledIn b m = true → ∀ x ∈ below b.channels i, enabledIn b x = true → x.quantity ≠ m.quantity
  calibration : ∃ e, b.calibration[m.calibration]? = some (some e) ∧ goodCalibration e = true

theorem checkChannel_none {b : Bank} {i : Nat} {m : MapEntry} (hm : b.channels[i]? = some (some m))
    (h : checkChannel b i = none) : ChannelSound b i m := by
  rw [checkChannel, getD_of_getElem? hm] at h
  dsimp only at h
  split at h
  · exact nomatch h
  next key =>
    split at h
    · exact nomatch h
    next quantity =>
      split at h
      next calibration =>
        simp only [List.any_eq_true, Bool.and_eq_true, beq_iff_eq, not_exists, not_and] at key quantity
        refine ⟨fun x hx ⟨hn, hc⟩ => key x hx hn hc, fun he x hx hx' => quantity he x hx hx', ?_⟩
        obtain ⟨e, he, good⟩ := (Option.any_eq_true _ _).mp calibration
        exact ⟨e, getElem?_of_getD he, good⟩
      · exact nomatch h

/-- What checks 5c to 5f find of a plan: it ends in its one FINISH, which has no park mark and no timeout, and no step
stands past it. -/
def PlanSound (b : Bank) (plan : Nat) : Prop :=
  ∃ body last, planSteps b plan = body ++ [last] ∧ last.kind = .finish ∧ last.parkOnly = false ∧ last.timeout = 0 ∧
    (∀ p ∈ body, p.kind ≠ .finish) ∧
    ∀ (k : Nat) (p : PlanStep), (planEntries b plan)[k]? = some (some p) → k ≤ body.length

theorem checkPlan_none {b : Bank} {plan : Nat} (h : checkPlan b plan = none) : PlanSound b plan := by
  unfold checkPlan at h
  dsimp only at h
  rcases List.eq_nil_or_concat (planSteps b plan) with e | ⟨body, last, e⟩
  · rw [e] at h
    exact nomatch h
  · rw [List.concat_eq_append] at e
    rw [e] at h
    have full : (body ++ [last]).isEmpty = false := by simp
    simp only [full, Bool.false_eq_true, if_false, List.getLast?_concat, Option.all_some, Option.any_some,
      List.dropLast_concat] at h
    split at h
    · exact nomatch h
    next gap =>
      split at h
      · exact nomatch h
      next finish =>
        split at h
        · exact nomatch h
        next early =>
          split at h
          · exact nomatch h
          next form =>
            simp only [bne_iff_ne, ne_eq, not_not, Bool.or_eq_true, not_or, Bool.not_eq_true] at finish form
            obtain ⟨park, timeout⟩ := form
            refine ⟨body, last, e, finish, park, timeout, fun p hp => ?_, fun k p hk => ?_⟩
            · obtain ⟨i, hi⟩ := List.mem_iff_getElem?.mp hp
              exact beq_eq_false_iff_ne.mp (firstFault_none early hi)
            · have past := firstFault_none gap hk
              rw [Option.isSome_some, Bool.true_and, decide_eq_false_iff_not, ← e] at past
              have within := planEntries_within hk past
              rw [e, List.length_append, List.length_singleton] at within
              exact Nat.le_of_lt_succ within

theorem checkClass_none {b : Bank} {i : Nat} (h : checkClass b i = none) :
    ∃ c, b.classes[i]? = some (some c) ∧ c.releaseForce < c.engageForce ∧ PlanSound b c.plan := by
  unfold checkClass at h
  cases e : b.classes.getD i none with
  | none => rw [e] at h; exact nomatch h
  | some c =>
    rw [e] at h
    dsimp only at h
    split at h
    · exact nomatch h
    next order => exact ⟨c, getElem?_of_getD e, Int.not_le.mp order, checkPlan_none h⟩

theorem checkSettings_none {b : Bank} (h : checkSettings b = none) :
    ∃ x, b.settings = some x ∧ x.followerCircumference.isSome = true ∧ x.pulsesPerRev.isSome = true ∧
      x.batchLevel.isSome = true ∧ x.standstillSpeed < x.minDriveSpeed ∧ x.speedLow < x.speedHigh := by
  unfold checkSettings at h
  cases e : b.settings with
  | none => rw [e] at h; exact nomatch h
  | some x =>
    rw [e] at h
    dsimp only at h
    split at h
    · exact nomatch h
    next unset =>
      split at h
      · exact nomatch h
      next order =>
        simp only [Bool.or_eq_true, Option.isNone_iff_eq_none, not_or, ← Option.isSome_iff_ne_none] at unset
        obtain ⟨⟨circumference, pulses⟩, level⟩ := unset
        rw [not_or, Int.not_le, Int.not_le] at order
        exact ⟨x, rfl, circumference, pulses, level, order⟩

/-- Settles O22: one promise for each check. -/
theorem validBankPromises : Obligations.ValidBankPromises := by
  unfold Obligations.ValidBankPromises
  intro b hl h
  obtain ⟨nodes, cabinet, display, channels, classes, settings⟩ := validate_none.mp h
  have sound : ∀ (i : Nat) (m : MapEntry), b.channels[i]? = some (some m) → ChannelSound b i m := fun i m hm => by
    obtain ⟨hi, -⟩ := List.getElem?_eq_some_iff.mp hm
    exact checkChannel_none hm (channels i (hl ▸ hi))
  refine ⟨fun i j g k => checkNodes_none nodes, fun r hr => ?_,
    fun i j x y hij hx hy => ⟨fun same => ?_, fun ex ey => ?_⟩, fun i m hm => ?_, fun i hi => checkClass_none (classes i hi), checkSettings_none settings⟩
  · rcases hr with rfl | rfl
    · exact checkRole_none cabinet
    · exact checkRole_none display
  · exact (sound j y hy).key x (mem_below hij hx) (Prod.mk.injEq .. ▸ same)
  · exact (sound j y hy).quantity ey x (mem_below hij hx) ex
  · obtain ⟨e, he, good⟩ := (sound i m hm).calibration
    rw [goodCalibration, Bool.and_eq_true, decide_eq_true_eq] at good
    obtain ⟨rising, range⟩ := good
    exact ⟨e, he, range, increasing_pairwise rising⟩

end Sys2Proof.Machine
end

section
/-! VEHICLE_CANCEL and the lane clearance in EXIT (R60, R74, R84, R162). -/

namespace Sys2Proof.Machine

/-! ### The count of cancelled vehicles (R174) -/

theorem Speaks.cancelled {s t : State} (h : Speaks s t) : t.live.cancelled = s.live.cancelled := by rw [h.counts]

theorem laneStopBoth_cancelled (s : State) : (laneStopBoth s).1.live.cancelled = s.live.cancelled := by
  obtain ⟨x, u, v, y, n, l, r, e, -⟩ := laneStopBoth_only s
  rw [e]
  rfl

theorem offerGuide_live (g : GuideMessage) (s : State) : (offerGuide g s).live = s.live := by
  obtain ⟨x, u, v, m, e, -⟩ := offerGuide_only g s
  rw [e]

theorem offerGuide_rollers (g : GuideMessage) (s : State) : (offerGuide g s).rollers = s.rollers := by
  obtain ⟨x, u, v, m, e, -⟩ := offerGuide_only g s
  rw [e]

theorem enterExit_cancelled (o : LaneOccasion) (s : State) :
    (enterExit o s).live.cancelled = s.live.cancelled := by
  unfold enterExit exitGuide
  rw [offerGuide_live, laneStopBoth_cancelled, (enterLane_speaks id_speaks .exit o _).cancelled]
  rfl

theorem syncBroadcast_cancelled (code : SyncCode) (source : SyncSource) (s : State) :
    (syncBroadcast code source s).live.cancelled = s.live.cancelled := by
  obtain ⟨x, u, v, n, qs, e, -⟩ := issueSync_only code source s
  unfold syncBroadcast
  rw [(syncNotice_speaks code source _ _).cancelled, e]
  rfl

/-- The exit of a lane whose sides are both STOPPED leaves the sides as they are. -/
theorem enterExit_rollers {s : State} (o : LaneOccasion) (h : ∀ sd, (s.roller sd).state = .stopped) :
    (enterExit o s).rollers = s.rollers := by
  have rollers := enterLane_rollers id_speaks .exit o (s.setLane fun l => { l with causes := onlyEstop l.causes })
  have sides := enterLane_roller id_speaks .exit o (s.setLane fun l => { l with causes := onlyEstop l.causes })
  unfold enterExit exitGuide
  rw [offerGuide_rollers, laneStopBoth_stopped fun sd => by rw [sides]; exact h sd, rollers]
  rfl

/-! ### The discard of a vehicle, with a pending switch (R60, R162) -/

/-- What the discard of a vehicle and the switch that waited for it replace. -/
structure Discarded (s t : State) : Prop where
  only : t = { discard s with
    station := t.station, quantities := t.quantities, live := t.live, working := t.working, banks := t.banks
    rollers := t.rollers, cadA := t.cadA, cadB := t.cadB }
  cancelled : t.live.cancelled = s.live.cancelled
  side : ∀ sd, t.roller sd = { (s.roller sd).watchOff with testDue := (t.roller sd).testDue }
  estop : t.rollers.estop = s.rollers.estop
  kept : s.banks.switchPending = false → t = discard s
  switched : s.banks.switchPending = true → t.working = s.shadow ∧ t.banks = switchedBanks s.banks

theorem discard_side (s : State) (sd : Side) : (discard s).roller sd = (s.roller sd).watchOff := watchesOff_roller s sd

theorem switched_side (s : State) (sd : Side) : s.switched.roller sd = forgetTest (s.roller sd) := by
  cases sd <;> rfl

theorem discardWith_discarded (o : SwitchOccasion) (s : State) : Discarded s (discardWith o s) := by
  have taken := applyPending_taken o (discard s)
  have side : ∀ sd, (discardWith o s).roller sd =
      { (s.roller sd).watchOff with testDue := ((discardWith o s).roller sd).testDue } := fun sd => by
    cases pending : s.banks.switchPending with
    | false =>
      have same : discardWith o s = discard s := taken.none pending
      rw [same, discard_side]
    | true =>
      have applied : discardWith o s = applySwitch o id (discard s) := if_pos pending
      have switched := (applySwitch_to id_speaks o (discard s)).only
      rw [applied]
      generalize applySwitch o id (discard s) = t at switched
      have forgot : t.roller sd = (discard s).switched.roller sd := by rw [switched]; rfl
      rw [forgot, switched_side, discard_side]
      rfl
  exact ⟨taken.only, taken.cancelled, side, taken.along.estop, taken.none, taken.pending⟩

/-! ### VEHICLE_CANCEL (R74) -/

theorem exec_vehicleCancel {s : State} {f : Frame} (h : s.asks f [0x07]) :
    exec .vehicleCancel s = .next (takeVehicleCancel f.src.toNat [] (s.dropFirst .station)) :=
  congrArg Host.Outcome.next (onRequest_asks h takeVehicleCancel)

theorem takeVehicleCancel_none {src : Nat} {s : State} (h : s.vehicle = none) :
    takeVehicleCancel src [] s = reply src 0x07 2 [] s := by
  rw [takeVehicleCancel, if_neg (fun e => e rfl), if_pos (by rw [h]; rfl)]
  rfl

theorem takeVehicleCancel_some {src : Nat} {s : State} (h : s.vehicle.isSome = true) :
    takeVehicleCancel src [] s = cancelVehicle src s := by
  have opened : ¬ s.vehicle.isNone = true := by
    rw [Option.isNone_iff_eq_none]
    exact Option.isSome_iff_ne_none.mp h
  rw [takeVehicleCancel, if_neg (fun e => e rfl), if_neg opened]

/-- A cancel up to its reply: the sides stopped, the vehicle dropped and counted, the causes reduced (R74). -/
def cancelAnswered (src : Nat) (s : State) : State :=
  reply src 0x07 statusDone []
    ((countCancelled (discardWith .cancel (laneStopBoth (clearEngine s)).1)).setLane fun l =>
      { l with causes := onlyEstop l.causes })

theorem cancelVehicle_eq (src : Nat) (s : State) : cancelVehicle src s = laneAfterCancel (cancelAnswered src s) := rfl

/-- What a cancel has made of the state at its reply (R74, R162). -/
structure Dropped (s t : State) : Prop where
  vehicle : t.vehicle = none
  engine : t.engine = { EngineState.reset with pendingGuide := s.engine.pendingGuide }
  blocks : t.eval = Evaluator.reset ∧ t.plate = PlateUnit.reset ∧ t.clock = { s.clock with live := 0, hold := 0 }
  cancelled : t.live.cancelled = s.live.cancelled + 1
  side : ∀ sd, (t.roller sd).still = true ∧ (t.roller sd).watch = none
  estop : t.rollers.estop = s.rollers.estop
  lane : t.lane = { s.lane with causes := onlyEstop s.lane.causes, autoTest := .clear }
  stores : t.certs = s.certs ∧ t.shadow = s.shadow ∧ t.syncLog = s.syncLog
  kept : s.banks.switchPending = false →
    t.working = s.working ∧ t.banks = s.banks ∧ t.cadA = s.cadA ∧ t.cadB = s.cadB
  switched : s.banks.switchPending = true → t.working = s.shadow ∧ t.banks = switchedBanks s.banks

theorem cancelAnswered_dropped (src : Nat) (s : State) : Dropped s (cancelAnswered src s) := by
  obtain ⟨x, u, v, y, n, l, r, stopped, hl, hr⟩ := laneStopBoth_only (clearEngine s)
  have discarded := discardWith_discarded .cancel (laneStopBoth (clearEngine s)).1
  unfold cancelAnswered
  rw [stopped] at discarded ⊢
  generalize discardWith .cancel ((clearEngine s).stoppingBoth x u v y n l r) = d at discarded ⊢
  have heard := reply_speaks src 0x07 statusDone []
    ((countCancelled d).setLane fun l => { l with causes := onlyEstop l.causes })
  generalize reply src 0x07 statusDone [] _ = t at heard ⊢
  have et := heard.only
  have ed := discarded.only
  have side : ∀ sd, t.roller sd = d.roller sd := fun sd => by rw [et]; rfl
  exact {
    vehicle := by rw [et, ed]; rfl
    engine := by rw [et, ed]; rfl
    blocks := by rw [et, ed]; exact ⟨rfl, rfl, rfl⟩
    cancelled := heard.cancelled.trans (congrArg (· + 1) discarded.cancelled)
    side := fun sd => by
      rw [side, discarded.side]
      cases sd with
      | left => exact ⟨hl.still, rfl⟩
      | right => exact ⟨hr.still, rfl⟩
    estop := by rw [et]; exact discarded.estop
    lane := by rw [et, ed]; rfl
    stores := by rw [et, ed]; exact ⟨rfl, rfl, rfl⟩
    kept := fun free => by rw [et, discarded.kept free]; exact ⟨rfl, rfl, rfl, rfl⟩
    switched := fun pending => by rw [et]; exact discarded.switched pending }

/-- Where the table of R74 puts the lane, by whether both sides are STOPPED. -/
def LaneControl.cancelled (l : LaneControl) (stopped : Bool) : LaneControl :=
  match l.state with
  | .off | .idle | .manual | .exit => l
  | .halted => if stopped then { l with remembered := some .exit } else { l with exitWait := true }
  | .entry | .testing | .pausing | .paused =>
    if stopped then { l with state := .exit, causes := onlyEstop l.causes } else { l with exitWait := true }

section
variable {l : LaneControl}

theorem cancelled_stays (h : l.state = .off ∨ l.state = .idle ∨ l.state = .manual ∨ l.state = .exit) (stopped : Bool) :
    l.cancelled stopped = l := by
  unfold LaneControl.cancelled
  rcases h with e | e | e | e <;> rw [e]

theorem cancelled_halted (h : l.state = .halted) : l.cancelled true = { l with remembered := some .exit } ∧
    l.cancelled false = { l with exitWait := true } := by
  unfold LaneControl.cancelled
  rw [h]
  exact ⟨rfl, rfl⟩

theorem cancelled_leaves (h : l.state = .entry ∨ l.state = .testing ∨ l.state = .pausing ∨ l.state = .paused) :
    l.cancelled true = { l with state := .exit, causes := onlyEstop l.causes } ∧
    l.cancelled false = { l with exitWait := true } := by
  unfold LaneControl.cancelled
  rcases h with e | e | e | e <;> rw [e] <;> exact ⟨rfl, rfl⟩

/-- The causes of a lane whose set was reduced to ESTOP stay so reduced. -/
theorem cancelled_causes (stopped : Bool) {c : PauseCauses} (h : l.causes = onlyEstop c) :
    (l.cancelled stopped).causes = onlyEstop c := by
  unfold LaneControl.cancelled
  split
  case h_1 | h_2 | h_3 | h_4 => exact h
  case h_5 => split <;> exact h
  all_goals
    split
    · rw [h]
      rfl
    · exact h

theorem cancelled_autoTest (stopped : Bool) : (l.cancelled stopped).autoTest = l.autoTest := by
  unfold LaneControl.cancelled
  repeat' split
  all_goals rfl

theorem cancelled_rezeroCount (stopped : Bool) : (l.cancelled stopped).rezeroCount = l.rezeroCount := by
  unfold LaneControl.cancelled
  repeat' split
  all_goals rfl

end

/-- What the table of R74 replaces. -/
structure LaneMoved (s t : State) : Prop where
  only : t = { s with
    head := t.head, urgent := t.urgent, headPlace := t.headPlace, station := t.station, quantities := t.quantities
    live := t.live, lane := s.lane.cancelled (bothStopped s)
    engine := { s.engine with pendingGuide := t.engine.pendingGuide } }
  cancelled : t.live.cancelled = s.live.cancelled

theorem setLane_moved {s : State} {f : LaneControl → LaneControl} (h : s.lane.cancelled (bothStopped s) = f s.lane) :
    LaneMoved s (s.setLane f) := ⟨by rw [h]; rfl, rfl⟩

theorem bothStopped_iff (s : State) : bothStopped s = true ↔
    (s.roller .left).state = .stopped ∧ (s.roller .right).state = .stopped := by
  simp only [bothStopped, Bool.and_eq_true, beq_iff_eq]

theorem enterExit_moved {s : State} (stopped : bothStopped s = true)
    (h : s.lane.state = .entry ∨ s.lane.state = .testing ∨ s.lane.state = .pausing ∨ s.lane.state = .paused) :
    LaneMoved s (enterExit .cancel s) := by
  obtain ⟨left, right⟩ := (bothStopped_iff s).mp stopped
  have rollers := enterExit_rollers (s := s) .cancel fun sd => by
    cases sd with
    | left => exact left
    | right => exact right
  refine ⟨?_, enterExit_cancelled _ _⟩
  have only := (enterExit_exited .cancel s).only
  generalize enterExit .cancel s = t at only rollers ⊢
  rw [stopped, (cancelled_leaves h).1]
  rw [rollers] at only
  exact only

theorem laneAfterCancel_leaves {s : State}
    (h : s.lane.state = .entry ∨ s.lane.state = .testing ∨ s.lane.state = .pausing ∨ s.lane.state = .paused) :
    LaneMoved s (if bothStopped s then enterExit .cancel s else s.setLane fun l => { l with exitWait := true }) := by
  split
  next stopped => exact enterExit_moved stopped h
  next moving => exact setLane_moved (by rw [(Bool.not_eq_true _).mp moving, (cancelled_leaves h).2])

theorem laneAfterCancel_moved (s : State) : LaneMoved s (laneAfterCancel s) := by
  unfold laneAfterCancel
  cases state : s.lane.state with
  | off | idle | manual | exit => exact setLane_moved (f := id) (cancelled_stays (by simp [state]) _)
  | halted =>
    dsimp only
    split
    next stopped => exact setLane_moved (by rw [stopped, (cancelled_halted state).1])
    next moving => exact setLane_moved (by rw [(Bool.not_eq_true _).mp moving, (cancelled_halted state).2])
  | entry | testing | pausing | paused => exact laneAfterCancel_leaves (by simp [state])

/-- A cancel taken, from the request to the lane's place (R74). -/
theorem cancelVehicle_stages (src : Nat) (s : State) : ∃ a, Dropped s a ∧ LaneMoved a (cancelVehicle src s) :=
  ⟨_, cancelAnswered_dropped src s, cancelVehicle_eq src s ▸ laneAfterCancel_moved _⟩

theorem LaneMoved.lane {s t : State} (h : LaneMoved s t) : t.lane = s.lane.cancelled (bothStopped t) := by
  have only := h.only
  have stopped : bothStopped t = bothStopped s := by rw [only]; rfl
  rw [stopped, only]

end Sys2Proof.Machine
end

section
/-! The lane clearance in EXIT, and VEHICLE_CANCEL and the clearance together (R60, R74, R84, R162). -/

namespace Sys2Proof.Machine

/-! ### The re-zero count (R84) -/

/-- The re-zero count after a clearance, before a periodic ZERO takes it back (R84). -/
def rezeroNext (s : State) : Nat := min (s.lane.rezeroCount + 1) 255

/-- A periodic ZERO is due at a clearance (R84). -/
abbrev zeroDue (s : State) : Prop := (settings s).rezeroPeriod ≠ 0 ∧ (settings s).rezeroPeriod ≤ rezeroNext s

/-- What the re-zero count of a clearance replaces, by whether a periodic ZERO is due. -/
structure Rezeroed (due : Prop) [Decidable due] (s t : State) : Prop where
  only : t = { s with
    head := t.head, urgent := t.urgent, headPlace := t.headPlace, station := t.station, quantities := t.quantities
    live := t.live, syncLog := if due then s.logged .zero .periodic else s.syncLog
    lane := { s.lane with rezeroCount := if due then 0 else rezeroNext s } }
  cancelled : t.live.cancelled = s.live.cancelled
  head : s.head.tx ≠ .idle → s.head.queue.length < 16 → t.head =
    { s.head with queue := s.head.queue ++ (if due then [originate 63 0x05 [1]] else []) }

theorem periodicZero_rezeroed (due : Prop) [Decidable due] {s : State} (h : due ↔ zeroDue s) :
    Rezeroed due s (periodicZero s) := by
  by_cases hd : due
  · have taken : periodicZero s =
        (syncBroadcast .zero .periodic s).setLane fun l => { l with rezeroCount := 0 } := if_pos (h.mp hd)
    have sent := syncBroadcast_sent .zero .periodic s
    have cancelled := syncBroadcast_cancelled .zero .periodic s
    rw [taken]
    generalize syncBroadcast .zero .periodic s = b at sent cancelled ⊢
    have only := sent.only
    refine ⟨?_, cancelled, fun hb hq => ?_⟩
    · rw [if_pos hd, if_pos hd, only]
      rfl
    · rw [if_pos hd]
      exact sent.head hb hq
  · have counted : periodicZero s = s.setLane fun l => { l with rezeroCount := rezeroNext s } :=
      if_neg fun hz => hd (h.mpr hz)
    rw [counted]
    refine ⟨?_, rfl, fun _ _ => ?_⟩
    · rw [if_neg hd, if_neg hd]
      rfl
    · rw [if_neg hd, List.append_nil]
      rfl

/-! ### The clearance (R84) -/

/-- A vehicle still open at a clearance is closed, and a pending switch applied. -/
def closedOut (s : State) : State := if s.vehicle.isSome then discardWith .close s else s

theorem laneEmpty_iff (s : State) : laneEmpty s = true ↔
    ∀ q ∈ ([.axlePresentL, .axlePresentR, .plateOccupied] : List Quantity),
      mapped s q = none ∨ delivers s q 0 = true := by
  simp only [laneEmpty, deliversIfMapped, Bool.and_eq_true, Bool.or_eq_true, Option.isNone_iff_eq_none,
    List.forall_mem_cons, List.not_mem_nil, false_implies, implies_true, and_true, and_assoc]

theorem clearance_taken {s : State} (hs : s.lane.state = .exit) (hx : s.lane.exitWait = false)
    (he : laneEmpty s = true) : ∃ o, clearance s = enterLane .idle o id (periodicZero (closedOut s)) := by
  have taken : (s.lane.state == .exit && !s.lane.exitWait && laneEmpty s) = true := by
    rw [hs, hx, he]
    rfl
  unfold clearance closedOut
  rw [if_pos taken]
  split
  · exact ⟨_, rfl⟩
  · exact ⟨_, rfl⟩

theorem clearance_waits {s : State} (h : ¬ (s.lane.state = .exit ∧ s.lane.exitWait = false ∧ laneEmpty s = true)) :
    clearance s = s := by
  refine if_neg fun taken => h ?_
  simp only [Bool.and_eq_true, beq_iff_eq, Bool.not_eq_true'] at taken
  obtain ⟨⟨state, free⟩, empty⟩ := taken
  exact ⟨state, free, empty⟩

/-- What closing a vehicle that may still be open replaces, by whether a switch is applied with it (R60, R84). -/
structure ClosedOut (switched : Prop) [Decidable switched] (s t : State) : Prop where
  vehicle : t.vehicle = none
  lane : t.lane = { s.lane with autoTest := if s.vehicle.isSome then .clear else s.lane.autoTest }
  same : t.head = s.head ∧ t.syncLog = s.syncLog ∧ t.certs = s.certs ∧ t.shadow = s.shadow ∧
    t.clock.laneTime = s.clock.laneTime
  cancelled : t.live.cancelled = s.live.cancelled
  working : t.working = if switched then s.shadow else s.working
  banks : t.banks = if switched then switchedBanks s.banks else s.banks
  opened : s.vehicle.isSome = true → Discarded s t
  closed : s.vehicle = none → t = s

theorem closedOut_closedOut (switched : Prop) [Decidable switched] {s : State}
    (h : switched ↔ s.vehicle.isSome = true ∧ s.banks.switchPending = true) : ClosedOut switched s (closedOut s) := by
  cases hv : s.vehicle with
  | none =>
    have stays : closedOut s = s := if_neg (by rw [hv]; exact Bool.false_ne_true)
    have unswitched : ¬ switched := fun k => by
      obtain ⟨opened, -⟩ := h.mp k
      rw [hv] at opened
      exact Bool.false_ne_true opened
    rw [stays]
    exact {
      vehicle := hv, lane := by rw [hv]; rfl, same := ⟨rfl, rfl, rfl, rfl, rfl⟩, cancelled := rfl
      working := (if_neg unswitched).symm, banks := (if_neg unswitched).symm
      opened := fun opened => by rw [hv] at opened; exact absurd opened Bool.false_ne_true
      closed := fun _ => rfl }
  | some w =>
    have opened : s.vehicle.isSome = true := by rw [hv]; rfl
    have discarded := discardWith_discarded .close s
    rw [closedOut, if_pos opened]
    generalize discardWith .close s = t at discarded ⊢
    have et := discarded.only
    have banks : t.working = (if switched then s.shadow else s.working) ∧
        t.banks = if switched then switchedBanks s.banks else s.banks := by
      cases pending : s.banks.switchPending with
      | false =>
        have unswitched : ¬ switched := fun k => Bool.false_ne_true (pending.symm.trans (h.mp k).2)
        rw [if_neg unswitched, if_neg unswitched, discarded.kept pending]
        exact ⟨rfl, rfl⟩
      | true =>
        rw [if_pos (h.mpr ⟨opened, pending⟩), if_pos (h.mpr ⟨opened, pending⟩)]
        exact discarded.switched pending
    obtain ⟨working, control⟩ := banks
    exact {
      vehicle := by rw [et]; rfl
      lane := by rw [et, if_pos opened]; rfl
      same := by rw [et]; exact ⟨rfl, rfl, rfl, rfl, rfl⟩
      cancelled := discarded.cancelled, working := working, banks := control
      opened := fun _ => discarded
      closed := fun none => by rw [hv] at none; cases none }

/-- What a clearance leaves (R60, R84), by whether a pending switch is applied and a periodic ZERO is due. -/
structure Cleared (switched due : Prop) [Decidable switched] [Decidable due] (s t : State) : Prop where
  lane : t.lane = { s.lane with state := .idle, rezeroCount := if due then 0 else rezeroNext s
                                autoTest := if s.vehicle.isSome then .clear else s.lane.autoTest }
  vehicle : t.vehicle = none
  log : t.syncLog = if due then s.logged .zero .periodic else s.syncLog
  head : s.head.tx ≠ .idle → s.head.queue.length < 16 → t.head =
    { s.head with queue := s.head.queue ++ (if due then [originate 63 0x05 [1]] else []) }
  working : t.working = if switched then s.shadow else s.working
  banks : t.banks = if switched then switchedBanks s.banks else s.banks
  stores : t.certs = s.certs ∧ t.shadow = s.shadow
  cancelled : t.live.cancelled = s.live.cancelled
  opened : s.vehicle.isSome = true → t.engine = { EngineState.reset with pendingGuide := s.engine.pendingGuide } ∧
    t.eval = Evaluator.reset ∧ t.plate = PlateUnit.reset ∧ t.clock = { s.clock with live := 0, hold := 0 } ∧
    ∀ sd, (t.roller sd).state = (s.roller sd).state ∧ (t.roller sd).watch = none ∧ (t.roller sd).window = 0
  closed : s.vehicle = none → t = { s with
    head := t.head, urgent := t.urgent, headPlace := t.headPlace, station := t.station, lane := t.lane
    quantities := t.quantities, syncLog := t.syncLog, live := t.live }

/-- The vehicle closed, the re-zero count, and the entry of IDLE (R84). -/
theorem clearance_cleared (switched due : Prop) [Decidable switched] [Decidable due] {s : State}
    (hs : s.lane.state = .exit) (hx : s.lane.exitWait = false) (he : laneEmpty s = true)
    (hswitched : switched ↔ s.vehicle.isSome = true ∧ s.banks.switchPending = true)
    (hdue : due ↔ zeroDue { s with working := if switched then s.shadow else s.working }) :
    Cleared switched due s (clearance s) := by
  have closed := closedOut_closedOut switched hswitched
  obtain ⟨o, e⟩ := clearance_taken hs hx he
  rw [e]
  generalize closedOut s = c at closed ⊢
  have next : rezeroNext c = rezeroNext s := by rw [rezeroNext, closed.lane, rezeroNext]
  have rezeroed := periodicZero_rezeroed due (s := c) (by
    rw [hdue, zeroDue, zeroDue, next, settings, settings, closed.working]
    rfl)
  generalize periodicZero c = p at rezeroed ⊢
  have entered := enterLane_speaks id_speaks .idle o p
  generalize enterLane .idle o id p = t at entered ⊢
  have et := entered.only
  have ep := rezeroed.only
  have side : ∀ sd, t.roller sd = c.roller sd := fun sd => by rw [et, ep]; rfl
  have lane : t.lane = { c.lane with state := .idle, rezeroCount := if due then 0 else rezeroNext c } := by
    rw [et, ep]
    rfl
  have log : t.syncLog = if due then c.logged .zero .periodic else c.syncLog := by rw [et, ep]; rfl
  have head : t.head = p.head := by rw [et]; rfl
  obtain ⟨sameHead, sameLog, certs, shadow, time⟩ := closed.same
  have logged : c.logged .zero .periodic = s.logged .zero .periodic := by
    rw [State.logged, State.now, sameLog, time]
    rfl
  exact {
    lane := by rw [lane, next, closed.lane]
    vehicle := by rw [et, ep]; exact closed.vehicle
    log := by rw [log, logged, sameLog]
    head := fun hb hq => by
      rw [head, ← sameHead]
      exact rezeroed.head (by rw [sameHead]; exact hb) (by rw [sameHead]; exact hq)
    working := by rw [et, ep]; exact closed.working
    banks := by rw [et, ep]; exact closed.banks
    stores := by rw [et, ep]; exact ⟨certs, shadow⟩
    cancelled := entered.cancelled.trans (rezeroed.cancelled.trans closed.cancelled)
    opened := fun hv => by
      have discarded := closed.opened hv
      have ec := discarded.only
      refine ⟨by rw [et, ep, ec]; rfl, by rw [et, ep, ec]; rfl, by rw [et, ep, ec]; rfl, by rw [et, ep, ec]; rfl,
        fun sd => ?_⟩
      rw [side, discarded.side]
      exact ⟨rfl, rfl, rfl⟩
    closed := fun hv => by
      rw [closed.closed hv] at ep
      rw [et, ep]
      rfl }

/-! ### The statement -/

/-- What the table of R74 says of the lane after a cancel, from the lane before it. -/
def cancelTable (before after : LaneControl) (stopped : Prop) : Prop :=
  match before.state with
  | .off | .idle | .manual | .exit =>
    after.state = before.state ∧ after.remembered = before.remembered ∧ after.exitWait = before.exitWait
  | .halted =>
    after.state = .halted ∧ (stopped → after.remembered = some .exit ∧ after.exitWait = before.exitWait) ∧
      (¬ stopped → after.remembered = before.remembered ∧ after.exitWait = true)
  | .entry | .testing | .pausing | .paused =>
    (stopped → after.state = .exit ∧ after.exitWait = before.exitWait) ∧
      (¬ stopped → after.state = before.state ∧ after.exitWait = true)

theorem cancelled_table (l : LaneControl) (causes : PauseCauses) (autoTest : AutoTest) (stopped : Bool) :
    cancelTable l (LaneControl.cancelled { l with causes, autoTest } stopped) (stopped = true) := by
  unfold cancelTable
  split
  case h_1 e | h_2 e | h_3 e | h_4 e =>
    rw [cancelled_stays (by simp [e])]
    exact ⟨rfl, rfl, rfl⟩
  case h_5 e =>
    obtain ⟨leaves, waits⟩ := cancelled_halted (l := { l with causes, autoTest }) e
    cases stopped with
    | true =>
      rw [leaves]
      exact ⟨e, fun _ => ⟨rfl, rfl⟩, fun moving => absurd rfl moving⟩
    | false =>
      rw [waits]
      exact ⟨e, fun still => absurd still Bool.false_ne_true, fun _ => ⟨rfl, rfl⟩⟩
  all_goals next e =>
    obtain ⟨leaves, waits⟩ := cancelled_leaves (l := { l with causes, autoTest }) (by simp [e])
    cases stopped with
    | true =>
      rw [leaves]
      exact ⟨fun _ => ⟨rfl, rfl⟩, fun moving => absurd rfl moving⟩
    | false =>
      rw [waits]
      exact ⟨fun still => absurd still Bool.false_ne_true, fun _ => ⟨rfl, rfl⟩⟩

/-- Settles O31: VEHICLE_CANCEL by its stages and the table of R74, the clearance by its stages. -/
theorem vehicleCancelled : Obligations.VehicleCancelled := by
  unfold Obligations.VehicleCancelled
  refine ⟨fun f s h hv => ?_, fun f s h hv => ?_, fun s => ?_⟩
  · exact (exec_vehicleCancel h).trans
      (congrArg Host.Outcome.next (takeVehicleCancel_none (s := s.dropFirst .station) hv))
  · obtain ⟨a, dropped, moved⟩ := cancelVehicle_stages f.src.toNat (s.dropFirst .station)
    refine ⟨_, (exec_vehicleCancel h).trans
      (congrArg Host.Outcome.next (takeVehicleCancel_some (s := s.dropFirst .station) hv)), ?_⟩
    generalize cancelVehicle f.src.toNat (s.dropFirst .station) = t at moved ⊢
    have et := moved.only
    have lane := moved.lane
    rw [dropped.lane] at lane
    have side : ∀ sd, t.roller sd = a.roller sd := fun sd => by rw [et]; rfl
    obtain ⟨eval, plate, clock⟩ := dropped.blocks
    obtain ⟨certs, shadow, log⟩ := dropped.stores
    refine ⟨by rw [et]; exact dropped.vehicle, by rw [et, dropped.engine], by rw [et]; exact eval,
      by rw [et]; exact plate, by rw [et]; exact clock, moved.cancelled.trans dropped.cancelled,
      fun sd => by rw [side]; exact dropped.side sd, by rw [et]; exact dropped.estop, ?_, ?_, ?_,
      by rw [et]; exact certs, by rw [et]; exact shadow, by rw [et]; exact log,
      fun free => by rw [et]; exact dropped.kept free, fun pending => by rw [et]; exact dropped.switched pending, ?_⟩
    · rw [lane]
      exact cancelled_causes _ rfl
    · rw [lane, cancelled_autoTest]
    · rw [lane, cancelled_rezeroCount]
      rfl
    · dsimp only
      rw [← bothStopped_iff, lane]
      exact cancelled_table s.lane _ _ (bothStopped t)
  · dsimp only
    rw [← laneEmpty_iff]
    refine ⟨clearance_waits, fun hs hx he => ?_⟩
    have cleared := clearance_cleared (s.vehicle.isSome = true ∧ s.banks.switchPending = true) _ hs hx he
      Iff.rfl Iff.rfl
    obtain ⟨certs, shadow⟩ := cleared.stores
    exact ⟨cleared.lane, cleared.vehicle, cleared.log, cleared.head, cleared.working, cleared.banks, certs, shadow,
      cleared.cancelled, cleared.opened, cleared.closed⟩

end Sys2Proof.Machine
end

section
/-! GO_PAUSE (R78, R79, R101) and VEHICLE_OPEN (R73, R159, R173). -/

namespace Sys2Proof.Machine

/-! ### Entries of the lane (R64) -/

/-- What an entry of a lane state replaces: the lane state, and what the station hears of it (R42, R64). -/
structure LaneEntered (new : LaneState) (s t : State) : Prop where
  only : t = { s with station := t.station, lane := { s.lane with state := new }, quantities := t.quantities,
                      live := t.live }
  counts : t.live = { s.live with station := t.live.station, droppedBatches := t.live.droppedBatches,
                                  droppedReplies := t.live.droppedReplies }
  qty : ∀ q, (t.qty q).batch.values = [] ∧ t.qty q = { s.qty q with batch := (t.qty q).batch }

theorem enterLane_entered {answer : State → State} (h : ∀ s, Speaks s (answer s)) (new : LaneState) (o : LaneOccasion)
    (s : State) : LaneEntered new s (enterLane new o answer s) :=
  have speaks := enterLane_speaks h new o s
  ⟨speaks.only, speaks.counts, fun q => ⟨enterLane_values answer new o s q, speaks.qty q⟩⟩

theorem LaneEntered.lane {new : LaneState} {s t : State} (h : LaneEntered new s t) :
    t.lane = { s.lane with state := new } := congrArg State.lane h.only

/-! ### GO_PAUSE (R78) -/

/-- The Step Engine once a step of the kind was paused: a force step runs on, another is suspended (R78, R101). -/
def EngineState.paused (e : EngineState) : StepKind → EngineState
  | .spin | .service | .hold | .park => e
  | .weigh => { e with phase := .suspendedRestart, marks := { left := .clear, right := .clear } }
  | .axleIn | .axleOut | .stop => { e with phase := .suspendedContinue, presence := 0 }
  | .finish => { e with phase := .suspendedContinue }

/-- The step that GO_PAUSE finds running, before the lane is entered (R78). -/
def pausedStep (k : StepKind) (s : State) : State := if isForce k then s else suspend s

/-- A paused WEIGH drops its measurement and its watches; no other step loses anything but its place (R101). -/
theorem pausedStep_eq {k : StepKind} {s : State} (hr : s.engine.phase = .running) (hk : currentKind s = some k) :
    pausedStep k s = { s with
      engine := s.engine.paused k
      eval := if k = .weigh then Evaluator.reset else s.eval
      rollers := if k = .weigh then (watchesOff s).rollers else s.rollers } := by
  have running : ¬ (s.engine.phase != .running) = true := by rw [hr]; decide
  unfold pausedStep suspend
  rw [if_neg running, hk]
  cases k with
  | spin | service | hold | park => rfl
  | weigh => rfl
  | axleIn | axleOut | stop => rfl
  | finish => rfl

/-- STATION in the pause-cause set (R76). -/
def addStation (s : State) : State := s.setLane fun l => { l with causes := { l.causes with station := true } }

theorem goPause_taken {src : Nat} {k : StepKind} {s : State} (hs : s.lane.state = .testing)
    (hx : s.lane.exitWait = false) (hk : currentKind s = some k) :
    goPause src s = enterLane (if isForce k then .pausing else .paused) (.go .pause) (goDone src)
      (pausedStep k (addStation s)) := by
  unfold goPause pausedStep
  rw [hs, hx, hk]
  cases h : isForce k with
  | true => simp [h, addStation]
  | false => simp [h, addStation]

/-- Settles O27: the step is suspended by its kind, and the lane then entered. -/
theorem goPauseSuspends : Obligations.GoPauseSuspends := by
  unfold Obligations.GoPauseSuspends
  intro f k s hf hs hx hr hk
  have taken := goPause_taken (src := f.src.toNat) (s := s.dropFirst .station) hs hx hk
  have step := pausedStep_eq (s := addStation (s.dropFirst .station)) hr hk
  generalize pausedStep k (addStation (s.dropFirst .station)) = p at taken step
  have entered := enterLane_entered (goDone_speaks f.src.toNat) (if isForce k then .pausing else .paused) (.go .pause) p
  refine ⟨_, (exec_go (g := .pause) hf).trans (congrArg Host.Outcome.next taken), ?_⟩
  generalize enterLane _ _ _ p = t at entered ⊢
  have only := entered.only
  have sides : t.rollers = if k = .weigh then (watchesOff s).rollers else s.rollers := by rw [only, step]; rfl
  refine ⟨?_, ?_, ?_, fun hw => ?_, fun sd => ?_, fun q => ?_, ?_⟩
  · rw [only, step]
    rfl
  · rw [only, step]
    cases k <;> rfl
  · rw [only, step]
    rfl
  · rw [sides, if_neg hw]
  · rw [State.roller, sides]
    split
    · show ((watchesOff s).roller sd).state = (s.roller sd).state
      rw [watchesOff_roller]
      rfl
    · rfl
  · have same : p.qty q = s.qty q := by rw [step]; rfl
    exact same ▸ entered.qty q
  · rw [only, step]
    rfl

/-! ### VEHICLE_OPEN (R73, R159) -/

/-- A counted list is cut off as it was written (chapter 11). -/
theorem cutCounted_counted {l : List Byte} (tail : List Byte) (h : l.length < 256) :
    cutCounted (BitVec.ofNat 8 l.length :: (l ++ tail)) = some (l, tail) := by
  have count : (BitVec.ofNat 8 l.length).toNat = l.length := by rw [BitVec.toNat_ofNat, Nat.mod_eq_of_lt h]
  have fits : l.length ≤ (l ++ tail).length := by rw [List.length_append]; omega
  unfold cutCounted
  dsimp only
  rw [count, if_pos fits, List.take_left, List.drop_left]

/-- The fields of a VEHICLE_OPEN that has the form of chapter 11. -/
theorem parseOpen_formed (cls n : Byte) {park ident dt : List Byte} (hp : park.length < 256)
    (hi : ident.length < 256) (hd : dt.length < 256) :
    parseOpen (cls :: n :: BitVec.ofNat 8 park.length :: (park ++ BitVec.ofNat 8 ident.length ::
      (ident ++ BitVec.ofNat 8 dt.length :: dt))) =
    some { cls := cls.toNat, n := n.toNat, park := park.map (·.toNat), ident, dateTime := dt } := by
  have last : cutCounted (BitVec.ofNat 8 dt.length :: dt) = some (dt, []) := by
    simpa using cutCounted_counted [] hd
  simp only [parseOpen, cutCounted_counted _ hp, cutCounted_counted _ hi, last, Option.bind_some, if_true]

theorem inRange_iff {lo n hi : Nat} : inRange lo n hi = true ↔ lo ≤ n ∧ n ≤ hi := by simp [inRange]

/-- The ranges of a VEHICLE_OPEN whose lists are no longer than the rule allows (R73, R159). -/
theorem goodOpen_iff {cls n : Byte} {park ident dt : List Byte} (hp : park.length ≤ 8) (hi : ident.length ≤ 20)
    (hd : dt.length ≤ 16) :
    goodOpen { cls := cls.toNat, n := n.toNat, park := park.map (·.toNat), ident, dateTime := dt } = true ↔
      cls.toNat ≤ 7 ∧ 2 ≤ n.toNat ∧ n.toNat ≤ 8 ∧ (∀ a ∈ park, 1 ≤ a.toNat ∧ a.toNat ≤ n.toNat) ∧
        1 ≤ ident.length ∧ (∀ b ∈ ident ++ dt, 32 ≤ b.toNat ∧ b.toNat ≤ 126) := by
  simp only [goodOpen, printable, Bool.and_eq_true, inRange_iff, List.all_map, List.all_eq_true, Function.comp_apply,
    List.length_map, List.forall_mem_append]
  constructor
  · rintro ⟨⟨⟨⟨⟨⟨⟨⟨-, h1⟩, h2, h3⟩, -⟩, h4⟩, h5, -⟩, -⟩, h6⟩, h7⟩
    exact ⟨h1, h2, h3, h4, h5, h6, h7⟩
  · rintro ⟨h1, h2, h3, h4, h5, h6, h7⟩
    exact ⟨⟨⟨⟨⟨⟨⟨⟨Nat.zero_le _, h1⟩, h2, h3⟩, Nat.zero_le _, hp⟩, h4⟩, h5, hi⟩, Nat.zero_le _, hd⟩, h6⟩, h7⟩

/-- Settles O30: the form is always kept, so the lane state, the open vehicle and the ranges decide. -/
theorem vehicleOpened : Obligations.VehicleOpened := by
  unfold Obligations.VehicleOpened
  intro f cls n park ident dt s hp hi hd hf
  have parsed := parseOpen_formed cls n (park := park) (ident := ident) (dt := dt) (by omega) (by omega) (by omega)
  have good := goodOpen_iff (cls := cls) (n := n) hp hi hd
  have exec : exec .vehicleOpen s = .next (takeVehicleOpen f.src.toNat _ (s.dropFirst .station)) :=
    congrArg Host.Outcome.next (onRequest_asks hf takeVehicleOpen)
  rw [exec]
  unfold takeVehicleOpen
  rw [parsed]
  dsimp only
  rw [← good]
  refine ⟨fun barred => ?_, fun idle none => ?_⟩
  · rw [if_pos (show (s.dropFirst .station).lane.state ≠ .idle ∨ (s.dropFirst .station).vehicle.isSome = true
      from barred)]
    rfl
  · have free : ¬ ((s.dropFirst .station).lane.state ≠ .idle ∨ (s.dropFirst .station).vehicle.isSome = true) := by
      show ¬ (s.lane.state ≠ .idle ∨ s.vehicle.isSome = true)
      simp [idle, none]
    rw [if_neg free]
    refine ⟨fun bad => ?_, fun fine => ?_⟩
    · rw [if_neg bad]
      rfl
    · rw [if_pos fine]
      rfl

end Sys2Proof.Machine
end

section
/-! GO_RESUME (R72, R75, R78, R80, R83, R84, R101, R105). -/

namespace Sys2Proof.Machine

/-! ### GO_RESUME in PAUSING and PAUSED (R78, R80) -/

section
variable {src : Nat} {s : State}

theorem goResume_pausing (hs : s.lane.state = .pausing) (hx : s.lane.exitWait = false) :
    goResume src s = enterLane .testing .resumed (goDone src) (dropStation s) := by
  simp [goResume, hs, hx]

theorem goResume_paused (hs : s.lane.state = .paused) (hx : s.lane.exitWait = false) :
    goResume src s = if noCause { s.lane.causes with station := false } = true then
        takeUp (enterLane .testing .resumed (goDone src) (dropStation s))
      else goDone src (dropStation s) := by
  simp [goResume, hs, hx, resumePaused, returnToTesting, dropStation]

/-- The DONE reply of a GO request in PAUSED (R66). -/
theorem goDone_paused (hs : s.lane.state = .paused) :
    goDone src s = reply src 0x05 0 [6, BitVec.ofNat 8 (causesByte s.lane.causes)] s := by
  rw [goDone, hs]
  rfl

end

/-- A step that waits for its sensors goes on as it stood, with its guidance offered anew (R101, R103). -/
theorem takeUp_continues {s : State} (hp : s.engine.phase = .suspendedContinue)
    (hk : currentKind s = some .axleIn ∨ currentKind s = some .axleOut) :
    takeUp s = guideStep (s.setEngine fun e => { e with phase := .running }) := by
  have kind : ∀ k, currentKind s = some k →
      currentKind (guideStep (s.setEngine fun e => { e with phase := .running })) = some k := fun k hk => by
    unfold guideStep
    split
    · exact hk
    next p _ =>
      obtain ⟨x, u, v, m, e, -⟩ := offerGuide_only (stepGuide p (s.setEngine fun e => { e with phase := .running }))
        (s.setEngine fun e => { e with phase := .running })
      rw [e]
      exact hk
  have stays : goOn (guideStep (s.setEngine fun e => { e with phase := .running })) =
      (guideStep (s.setEngine fun e => { e with phase := .running }), none) := by
    unfold goOn
    rcases hk with hk | hk
    · rw [kind _ hk]
    · rw [kind _ hk]
  rw [takeUp, hp]
  dsimp only
  rw [continueStep, stays]

theorem guideStep_only (s : State) : ∃ x u v m, guideStep s =
    { s with head := x, urgent := u, headPlace := v, engine := { s.engine with pendingGuide := m } } := by
  unfold guideStep
  split
  · exact ⟨_, _, _, _, rfl⟩
  · obtain ⟨x, u, v, m, e, -⟩ := offerGuide_only _ s
    exact ⟨x, u, v, m, e⟩

/-! ### GO_RESUME in HALTED (R83) -/

/-- ESTOP out of the pause-cause set and the remembered state forgotten (R83). -/
def releaseEstop (s : State) : State :=
  s.setLane fun l => { l with causes := { l.causes with estop := false }, remembered := none }

section
variable {src : Nat} {r : LaneState} {s : State}

theorem goResume_halted (hs : s.lane.state = .halted) (hr : s.lane.remembered = some r)
    (he : s.rollers.estop = false) : goResume src s = resumeHalted src r s := by
  simp [goResume, hs, hr, he]

theorem resumeHalted_exitWait (hx : s.lane.exitWait = true) :
    resumeHalted src r s = exitReady (enterLane r .resumed (goDone src) (releaseEstop s)) := by
  simp [resumeHalted, hx, releaseEstop]

/-- At the return to ENTRY the marker decides whether the test starts (R72, R83). -/
theorem resumeHalted_entry (hx : s.lane.exitWait = false) : resumeHalted src .entry s =
    if s.lane.autoTest = .due then
      startTest .autoTest id (enterLane .entry .resumed (goDone src) (releaseEstop s))
    else enterLane .entry .resumed (goDone src) (releaseEstop s) := by
  have same : (enterLane .entry .resumed (goDone src) (releaseEstop s)).lane.autoTest = s.lane.autoTest := by
    rw [(enterLane_entered (goDone_speaks src) .entry .resumed (releaseEstop s)).lane]
    rfl
  rw [releaseEstop] at same ⊢
  simp [resumeHalted, hx, same]

/-- The lane is where it was (R83). -/
theorem resumeHalted_returns (hx : s.lane.exitWait = false)
    (h : r = .idle ∨ r = .manual ∨ r = .exit ∧ s.vehicle.isSome = true ∨ r = .entry ∧ s.lane.autoTest ≠ .due) :
    resumeHalted src r s = enterLane r .resumed (goDone src) (releaseEstop s) := by
  rcases h with rfl | rfl | ⟨rfl, hv⟩ | ⟨rfl, hd⟩
  · simp [resumeHalted, hx, releaseEstop]
  · simp [resumeHalted, hx, releaseEstop]
  · have opened : s.vehicle.isNone = false := Option.isNone_eq_false_iff.mpr hv
    simp [resumeHalted, hx, releaseEstop, opened]
  · rw [resumeHalted_entry hx, if_neg hd]

/-- At the entry to EXIT with the vehicle cancelled the exit guidance is offered (R84, R105; log entry 40). -/
theorem resumeHalted_exits (hx : s.lane.exitWait = false) (hv : s.vehicle = none) :
    resumeHalted src .exit s = exitGuide (enterLane .exit .resumed (goDone src) (releaseEstop s)) := by
  simp [resumeHalted, hx, hv, releaseEstop]

/-- A test with a cause left, or one that was in PAUSING, is taken up in PAUSED (R83). -/
theorem resumeHalted_pauses (hx : s.lane.exitWait = false)
    (h : (r = .testing ∨ r = .paused) ∧ noCause { s.lane.causes with estop := false } = false ∨ r = .pausing) :
    resumeHalted src r s = enterLane .paused .resumed (goDone src) (releaseEstop s) := by
  rcases h with ⟨rfl | rfl, hc⟩ | rfl
  · simp [resumeHalted, hx, hc, releaseEstop]
  · simp [resumeHalted, hx, hc, releaseEstop]
  · simp [resumeHalted, hx, releaseEstop]

/-- A test with no cause left goes on (R80, R83). -/
theorem resumeHalted_tests (hx : s.lane.exitWait = false) (h : r = .testing ∨ r = .paused)
    (hc : noCause { s.lane.causes with estop := false } = true) :
    resumeHalted src r s = takeUp (enterLane .testing .resumed (goDone src) (releaseEstop s)) := by
  rcases h with rfl | rfl
  · simp [resumeHalted, hx, hc, releaseEstop, returnToTesting]
  · simp [resumeHalted, hx, hc, releaseEstop, returnToTesting]

end

/-- The exit guidance is queued at a busy head port with room, and pending at a full one (R84, R103). -/
theorem exitGuide_busy {s : State} (hb : s.head.tx ≠ .idle) : exitGuide s = if s.head.queue.length < 16 then
      { s with head := { s.head with queue := s.head.queue ++ [exitFrame s] },
               engine := { s.engine with pendingGuide := none } }
    else { s with engine := { s.engine with
      pendingGuide := some { message := 251, axle := 0, fields := none } } } := by
  unfold exitGuide
  rw [offerGuide_busy _ hb]
  rfl

/-! ### The step taken up (R80, R101) -/

/-- A runnable SPIN step of the pass for an axle (R80, R86). -/
def SpinAt (sec : List PlanStep) (park : List Nat) (axle i : Nat) : Prop :=
  ∃ q, sec[i]? = some q ∧ q.kind = .spin ∧ (q.parkOnly = false ∨ axle ∈ park)

theorem runnable_iff {park : List Nat} {axle : Nat} {p : PlanStep} :
    runnable park axle p = true ↔ p.parkOnly = false ∨ axle ∈ park := by
  simp [runnable]

theorem any_spin_iff {sec : List PlanStep} {park : List Nat} {axle i : Nat} :
    ((sec[i]?).any fun p => p.kind == .spin && runnable park axle p) = true ↔ SpinAt sec park axle i := by
  simp only [Option.any_eq_true, Bool.and_eq_true, beq_iff_eq, runnable_iff, SpinAt]

/-- The last number below a bound with a property. -/
theorem find?_reverse_range_iff (f : Nat → Bool) (n i : Nat) : (List.range n).reverse.find? f = some i ↔
    i < n ∧ f i = true ∧ ∀ j, i < j → j < n → f j = false := by
  induction n with
  | zero => simp
  | succ n ih =>
    rw [List.range_succ, List.reverse_append, List.reverse_singleton, List.singleton_append, List.find?_cons]
    cases h : f n with
    | true =>
      constructor
      · intro e
        obtain rfl : n = i := Option.some.inj e
        exact ⟨Nat.lt_succ_self n, h, fun j h1 h2 => absurd h1 (by omega)⟩
      · rintro ⟨h1, -, h3⟩
        by_cases e : i = n
        · rw [e]
        · exact absurd (h.symm.trans (h3 n (by omega) (Nat.lt_succ_self n))) (by decide)
    | false =>
      rw [ih]
      constructor
      · rintro ⟨h1, h2, h3⟩
        refine ⟨by omega, h2, fun j h4 h5 => ?_⟩
        by_cases e : j = n
        · rw [e, h]
        · exact h3 j h4 (by omega)
      · rintro ⟨h1, h2, h3⟩
        have other : i ≠ n := fun e => absurd (h.symm.trans (e ▸ h2)) (by decide)
        exact ⟨by omega, h2, fun j h4 h5 => h3 j h4 (by omega)⟩

theorem spinBefore_iff {sec : List PlanStep} {park : List Nat} {axle k i : Nat} :
    spinBefore sec park axle k = some i ↔
      i < k ∧ SpinAt sec park axle i ∧ ∀ j, i < j → j < k → ¬ SpinAt sec park axle j := by
  simp only [spinBefore, find?_reverse_range_iff, any_spin_iff, ← Bool.not_eq_true]

theorem isMeasuring_iff {k : StepKind} : isMeasuring k = true ↔ k = .service ∨ k = .hold ∨ k = .park := by
  cases k <;> simp [isMeasuring]

/-- A measuring step with a side that does not run goes back to the last runnable SPIN before it (R80). -/
theorem rerunFrom_iff {plan k i : Nat} {v : VehicleRecord} {p : PlanStep} {s : State} (hplan : s.engine.plan = some plan)
    (hstep : s.engine.step = some k) (hv : s.vehicle = some v) (hp : currentStep s = some p) :
    rerunFrom s = some i ↔ (p.kind = .service ∨ p.kind = .hold ∨ p.kind = .park) ∧
      ((s.roller .left).state ≠ .running ∨ (s.roller .right).state ≠ .running) ∧
      i < k ∧ SpinAt (axleSection s.working plan) v.park s.engine.axle i ∧
      ∀ j, i < j → j < k → ¬ SpinAt (axleSection s.working plan) v.park s.engine.axle j := by
  have measures : (currentKind s).any isMeasuring = true ↔ p.kind = .service ∨ p.kind = .hold ∨ p.kind = .park := by
    rw [currentKind, hp]
    exact isMeasuring_iff
  have rests : (!bothRunning s) = true ↔ (s.roller .left).state ≠ .running ∨ (s.roller .right).state ≠ .running := by
    simp only [bothRunning, Bool.not_eq_true', Bool.and_eq_false_iff, beq_eq_false_iff_ne]
  rw [rerunFrom, hplan, hstep, hv]
  by_cases h : (p.kind = .service ∨ p.kind = .hold ∨ p.kind = .park) ∧
      ((s.roller .left).state ≠ .running ∨ (s.roller .right).state ≠ .running)
  · rw [if_pos (Bool.and_eq_true_iff.mpr ⟨measures.mpr h.1, rests.mpr h.2⟩), ← and_assoc, and_iff_right h]
    exact spinBefore_iff
  · rw [if_neg (fun e => h ⟨measures.mp (Bool.and_eq_true_iff.mp e).1, rests.mp (Bool.and_eq_true_iff.mp e).2⟩),
      ← and_assoc]
    exact ⟨nofun, fun e => absurd e.1 h⟩

theorem beginAgain_rerun {o : BeginOccasion} {i : Nat} {s : State} (h : rerunFrom s = some i) :
    beginAgain o s = startStep .rerun (makeCurrent s.engine.axle i .rerun s) := by
  rw [beginAgain, h]

theorem beginAgain_itself {o : BeginOccasion} {s : State} (h : rerunFrom s = none) :
    beginAgain o s = startStep o s := by
  rw [beginAgain, h]

/-- A step suspended for a restart, and one left WAITING, is begun again (R101). -/
theorem takeUp_restarts {s : State} (h : s.engine.phase = .suspendedRestart) :
    takeUp s = beginAgain .restart (s.setEngine fun e => { e with waitTaken := false }) := by
  rw [takeUp, h]

theorem takeUp_waiting {s : State} (h : s.engine.phase = .waiting) :
    takeUp s = beginAgain s.engine.waitOccasion s := by
  rw [takeUp, h]

/-! ### The statement -/

/-- What an entry replaces that follows a change of the lane control at a request. -/
theorem LaneEntered.requested {new : LaneState} {g : LaneControl → LaneControl} {s t : State}
    (h : LaneEntered new ((s.dropFirst .station).setLane g) t) :
    t = { s with station := t.station, lane := t.lane, quantities := t.quantities, live := t.live } := by
  rw [h.lane]
  exact h.only

section
variable {f : Frame} {s : State}

theorem exec_goResume (hf : s.asks f [0x05, 0x08]) :
    exec .goResume s = .next (goResume f.src.toNat (s.dropFirst .station)) := exec_go (g := .resume) hf

theorem exec_goResume_paused (hf : s.asks f [0x05, 0x08]) (hx : s.lane.exitWait = false) (hs : s.lane.state = .paused)
    (hc : noCause { s.lane.causes with station := false } = true) :
    exec .goResume s = .next (takeUp (enterLane .testing .resumed (goDone f.src.toNat)
      (dropStation (s.dropFirst .station)))) :=
  (exec_goResume hf).trans (congrArg Host.Outcome.next
    ((goResume_paused (s := s.dropFirst .station) hs hx).trans (if_pos hc)))

/-- GO_RESUME in PAUSED with a step that waits for its sensors (R80, R101). -/
theorem exec_goResume_continues (hf : s.asks f [0x05, 0x08]) (hx : s.lane.exitWait = false)
    (hs : s.lane.state = .paused) (hc : noCause { s.lane.causes with station := false } = true)
    (hp : s.engine.phase = .suspendedContinue)
    (hk : currentKind s = some .axleIn ∨ currentKind s = some .axleOut) :
    ∃ t, exec .goResume s = .next t ∧
      t.lane = { s.lane with state := .testing, causes := { s.lane.causes with station := false } } ∧
      t.engine = { s.engine with phase := .running, pendingGuide := t.engine.pendingGuide } ∧
      t = { s with head := t.head, urgent := t.urgent, headPlace := t.headPlace, station := t.station,
                   lane := t.lane, quantities := t.quantities, engine := t.engine, live := t.live } := by
  have entered := enterLane_entered (goDone_speaks f.src.toNat) .testing .resumed (dropStation (s.dropFirst .station))
  have taken := exec_goResume_paused hf hx hs hc
  generalize enterLane .testing .resumed (goDone f.src.toNat) (dropStation (s.dropFirst .station)) = t at entered taken
  have only := entered.only
  have lane := entered.lane
  have engine : t.engine = s.engine := by rw [only]; rfl
  have kind : currentKind t = currentKind s := by rw [only]; rfl
  obtain ⟨x, u, v, m, guided⟩ := guideStep_only (t.setEngine fun e => { e with phase := .running })
  have continued := (takeUp_continues (engine ▸ hp) (kind ▸ hk)).trans guided
  rw [continued] at taken
  refine ⟨_, taken, lane, ?_, ?_⟩
  · show ({ t.engine with phase := .running, pendingGuide := m } : EngineState) = _
    rw [engine]
  · rw [only]
    rfl

/-- GO_RESUME in HALTED where a vehicle cancelled there left EXIT to be entered (R83, R84, R105). -/
theorem exec_goResume_exits (hf : s.asks f [0x05, 0x08]) (hx : s.lane.exitWait = false) (hs : s.lane.state = .halted)
    (hr : s.lane.remembered = some .exit) (he : s.rollers.estop = false) (hv : s.vehicle = none) :
    ∃ t, exec .goResume s = .next t ∧
      t.lane = { s.lane with state := .exit, remembered := none, causes := { s.lane.causes with estop := false } } ∧
      t.engine = { s.engine with pendingGuide := t.engine.pendingGuide } ∧
      (s.head.tx ≠ .idle → s.head.queue.length < 16 → t.engine.pendingGuide = none ∧
        t.head = { s.head with queue := s.head.queue ++ [originate ((displayNode s).getD 0) 0x06 [251, 0, 0]] }) ∧
      (s.head.tx ≠ .idle → 16 ≤ s.head.queue.length → t.head = s.head ∧
        t.engine.pendingGuide = some { message := 251, axle := 0, fields := none }) ∧
      t = { s with head := t.head, urgent := t.urgent, headPlace := t.headPlace, station := t.station,
                   lane := t.lane, quantities := t.quantities, engine := t.engine, live := t.live } := by
  have entered := enterLane_entered (goDone_speaks f.src.toNat) .exit .resumed (releaseEstop (s.dropFirst .station))
  have taken := (exec_goResume hf).trans (congrArg Host.Outcome.next ((goResume_halted (s := s.dropFirst .station)
    hs hr he).trans (resumeHalted_exits (s := s.dropFirst .station) hx hv)))
  generalize enterLane .exit .resumed (goDone f.src.toNat) (releaseEstop (s.dropFirst .station)) = t at entered taken
  have only := entered.only
  have lane := entered.lane
  have head : t.head = s.head := by rw [only]; rfl
  have engine : t.engine = s.engine := by rw [only]; rfl
  have frame : exitFrame t = exitFrame s := by rw [only]; rfl
  obtain ⟨x, u, v, m, guided, -⟩ := offerGuide_only { message := 251, axle := 0, fields := none } t
  have guided : exitGuide t = _ := guided
  refine ⟨_, taken, ?_, ?_, fun hb hl => ?_, fun hb hl => ?_, ?_⟩
  · rw [guided]
    exact lane
  · rw [guided, engine]
  · rw [exitGuide_busy (head ▸ hb), if_pos (head ▸ hl), frame, head]
    exact ⟨rfl, rfl⟩
  · rw [exitGuide_busy (head ▸ hb), if_neg (Nat.not_lt.mpr (head ▸ hl)), head]
    exact ⟨rfl, rfl⟩
  · rw [guided, only]
    rfl

end

/-- Settles O28: the lane state and the remembered state decide, then the step that is taken up. -/
theorem goResumeReturns : Obligations.GoResumeReturns := by
  unfold Obligations.GoResumeReturns
  refine ⟨fun f s hf hx => ?_, fun r f s hf hs hr he hx => ?_, fun plan k v p s hplan hstep hv hp hphase => ?_,
    fun o s t h => ?_⟩
  · intro left
    have dropped := fun new => enterLane_entered (goDone_speaks f.src.toNat) new .resumed
      (dropStation (s.dropFirst .station))
    refine ⟨fun hs => ?_, fun hs hc => ?_, fun hs hc => exec_goResume_continues hf hx hs hc, fun r hs hr he => ?_,
      fun hs hc => ⟨_, exec_goResume_paused hf hx hs hc, (dropped _).lane, (dropped _).requested⟩⟩
    · have taken := (exec_goResume hf).trans
        (congrArg Host.Outcome.next (goResume_pausing (s := s.dropFirst .station) hs hx))
      exact ⟨_, taken, (dropped _).lane, (dropped _).qty, (dropped _).requested⟩
    · have waits : ¬ noCause { s.lane.causes with station := false } = true := (Bool.not_eq_true _).mpr hc
      have taken := (goResume_paused (src := f.src.toNat) (s := s.dropFirst .station) hs hx).trans (if_neg waits)
      exact (exec_goResume hf).trans (congrArg Host.Outcome.next (taken.trans (goDone_paused hs)))
    · have released := fun new => enterLane_entered (goDone_speaks f.src.toNat) new .resumed
        (releaseEstop (s.dropFirst .station))
      have taken : exec .goResume s = .next (resumeHalted f.src.toNat r (s.dropFirst .station)) :=
        (exec_goResume hf).trans (congrArg Host.Outcome.next (goResume_halted (s := s.dropFirst .station) hs hr he))
      refine ⟨fun h => ?_, fun hr' hd => ?_, fun hr' hv => ?_, fun h => ?_, fun ⟨h, hc⟩ => ?_⟩
      · exact ⟨_, taken.trans (congrArg Host.Outcome.next (resumeHalted_returns (s := s.dropFirst .station) hx h)),
          (released r).lane, (released r).requested⟩
      · subst hr'
        exact ⟨_, taken.trans (congrArg Host.Outcome.next ((resumeHalted_entry (s := s.dropFirst .station) hx).trans (if_pos hd))),
          (released _).lane, (released _).qty, (released _).requested⟩
      · subst hr'
        exact exec_goResume_exits hf hx hs hr he hv
      · exact ⟨_, taken.trans (congrArg Host.Outcome.next (resumeHalted_pauses (s := s.dropFirst .station) hx h)),
          (released _).lane, (released _).requested⟩
      · exact ⟨_, taken.trans (congrArg Host.Outcome.next (resumeHalted_tests (s := s.dropFirst .station) hx h hc)),
          (released _).lane, (released _).requested⟩
  · have entered := enterLane_entered (goDone_speaks f.src.toNat) r .resumed (releaseEstop (s.dropFirst .station))
    exact ⟨_, (exec_goResume hf).trans (congrArg Host.Outcome.next ((goResume_halted (s := s.dropFirst .station) hs hr
      he).trans (resumeHalted_exitWait (s := s.dropFirst .station) hx))), entered.lane, entered.requested⟩
  · intro spinAt back
    have reruns : ∀ i, rerunFrom s = some i ↔ back i := fun i => rerunFrom_iff hplan hstep hv hp
    refine ⟨fun i hi => ?_, fun none => ?_⟩
    · have found := (reruns i).mpr hi
      rcases hphase with h | h
      · rw [takeUp_restarts h, beginAgain_rerun (s := s.setEngine fun e => { e with waitTaken := false }) found]
        rfl
      · rw [takeUp_waiting h, beginAgain_rerun found]
        rfl
    · have itself : rerunFrom s = Option.none := Option.eq_none_iff_forall_ne_some.mpr fun i e => none i ((reruns i).mp e)
      refine ⟨fun h => ?_, fun h => ?_⟩
      · rw [takeUp_restarts h, beginAgain_itself (s := s.setEngine fun e => { e with waitTaken := false }) itself]
        rfl
      · rw [takeUp_waiting h, beginAgain_itself itself]
  · have none : (beginStep o s).2 = Option.none := by rw [h]
    rw [startStep_none none, h]

end Sys2Proof.Machine
end

section
/-! CERT_ACK and CERT_NUMBER_SET (R81, R163, R166, R167, R169, R170). -/

namespace Sys2Proof.Machine

/-! ### What the station port does not look at -/

/-- The station port after a frame was offered to it (R5, R6). -/
def PortState.offered (x : PortState) (f : Frame) : PortState :=
  if x.queue.length < 32 then
    match x.tx, x.queue ++ [f] with
    | .idle, g :: rest => { x with queue := rest, tx := .taken g }
    | _, l => { x with queue := l }
  else x

/-- An offer to the station port looks at that port only (R5, R6). -/
theorem offer_station_eq (f : Frame) (s : State) : offer .station f s =
    ({ s with station := s.station.offered f }, decide (s.station.queue.length < 32)) := by
  have taken : offer .station f s = if s.station.queue.length < 32 then
      (takeStation { s with station := { s.station with queue := s.station.queue ++ [f] } }, true) else (s, false) := by
    unfold offer
    exact if_congr decide_eq_true_iff rfl rfl
  rw [taken, PortState.offered]
  split
  next h =>
    rw [decide_eq_true h, takeStation]
    cases ht : s.station.tx with
    | idle => cases s.station.queue ++ [f] <;> simp [ht]
    | taken g => simp [ht]
    | sending g l => simp [ht]
  next h => rw [decide_eq_false h]

theorem reply_eq (src : Nat) (code status : Byte) (l : List Byte) (s : State) : reply src code status l s = { s with
    station := s.station.offered (originate src kindMreply (code :: status :: l))
    live := if s.station.queue.length < 32 then s.live
      else { s.live with droppedReplies := s.live.droppedReplies + 1 } } := by
  simp only [reply, offer_station_eq, decide_eq_true_eq]
  split
  · rfl
  · rfl

theorem notice_eq (code : Byte) (l : List Byte) (s : State) : notice code l s = { s with
    station := s.station.offered (originate 62 kindNotice (code :: l))
    live := if s.station.queue.length < 32 then s.live
      else { s.live with station := { s.live.station with txOverrun := s.live.station.txOverrun + 1 } } } := by
  simp only [notice, offerCounted, offer_station_eq, decide_eq_true_eq]
  split
  · rfl
  · rfl

theorem reply_setLane (src : Nat) (code status : Byte) (l : List Byte) (f : LaneControl → LaneControl) (s : State) :
    reply src code status l (s.setLane f) = (reply src code status l s).setLane f := by
  rw [reply_eq, reply_eq]
  rfl

theorem notice_setLane (code : Byte) (l : List Byte) (f : LaneControl → LaneControl) (s : State) :
    notice code l (s.setLane f) = (notice code l s).setLane f := by
  rw [notice_eq, notice_eq]
  rfl

/-- The state with its certificates replaced. -/
def State.setCerts (s : State) (x : CertState) : State := { s with certs := x }

theorem reply_setCerts (src : Nat) (code status : Byte) (l : List Byte) (x : CertState) (s : State) :
    reply src code status l (s.setCerts x) = (reply src code status l s).setCerts x := by
  rw [reply_eq, reply_eq]
  rfl

theorem notice_setCerts (code : Byte) (l : List Byte) (x : CertState) (s : State) :
    notice code l (s.setCerts x) = (notice code l s).setCerts x := by
  rw [notice_eq, notice_eq]
  rfl

theorem foldl_offer_station (l : List Frame) (s : State) :
    l.foldl (fun t f => (offer .station f t).1) s = { s with station := l.foldl PortState.offered s.station } := by
  induction l generalizing s with
  | nil => rfl
  | cons f rest ih => rw [List.foldl_cons, List.foldl_cons, ih, offer_station_eq]

/-- A send that is due and has room (R167). -/
theorem certSendIfRoom_due {c : Certificate} {rest : List Certificate} {s : State} (hc : s.certs.queue = c :: rest)
    (hd : s.certs.due = true) (hl : s.station.queue.length + (segments c).length ≤ 32) :
    certSendIfRoom s = notice 0x0C (sentFields c s)
      { s with station := (segments c).foldl PortState.offered s.station, certs := sentCerts s } :=
  certSendIfRoom_sends hc hd hl (foldl_offer_station _ _)

theorem certSendIfRoom_notDue {c : Certificate} {rest : List Certificate} {s : State} (hc : s.certs.queue = c :: rest)
    (h : ¬ (s.certs.due = true ∧ s.station.queue.length + (segments c).length ≤ 32)) : certSendIfRoom s = s := by
  rw [certSendIfRoom_cons hc, if_neg h]

/-- A send does not look at the lane (R167). -/
theorem certSendIfRoom_setLane (f : LaneControl → LaneControl) (s : State) :
    certSendIfRoom (s.setLane f) = (certSendIfRoom s).setLane f := by
  cases hq : s.certs.queue with
  | nil =>
    have stays : certSendIfRoom s = s := by simp only [certSendIfRoom, hq]
    have stays' : certSendIfRoom (s.setLane f) = s.setLane f := by simp only [certSendIfRoom, State.setLane, hq]
    rw [stays, stays']
  | cons c rest =>
    by_cases h : s.certs.due = true ∧ s.station.queue.length + (segments c).length ≤ 32
    · have fields : sentFields c (s.setLane f) = sentFields c s := by
        unfold sentFields State.setLane
        dsimp only
      have certs : sentCerts (s.setLane f) = sentCerts s := by
        unfold sentCerts State.setLane
        dsimp only
      rw [certSendIfRoom_due hq h.1 h.2, certSendIfRoom_due (s := s.setLane f) hq h.1 h.2, fields, certs,
        ← notice_setLane]
      unfold State.setLane
      dsimp only
    · rw [certSendIfRoom_notDue hq h, certSendIfRoom_notDue (s := s.setLane f) hq h]

/-- At a busy station port a send puts its frames behind those that wait (R5, R167). -/
theorem certSendIfRoom_appends {s : State} (hb : s.station.tx ≠ .idle) :
    ∃ more, (certSendIfRoom s).station.queue = s.station.queue ++ more := by
  cases hq : s.certs.queue with
  | nil => exact ⟨[], by simp [certSendIfRoom, hq]⟩
  | cons c rest =>
    by_cases h : s.certs.due = true ∧ s.station.queue.length + (segments c).length ≤ 32
    · rw [certSendIfRoom_busy hq h.1 hb h.2, notice_busy _ _ (by exact hb)]
      split
      · exact ⟨segments c ++ [originate 62 kindNotice (0x0C :: sentFields c s)], List.append_assoc _ _ _⟩
      · exact ⟨segments c, rfl⟩
    · exact ⟨[], by rw [certSendIfRoom_notDue hq h, List.append_nil]⟩

/-! ### The acknowledge (R169) -/

/-- Four bytes spell the word they were made of. -/
theorem readNat_word32 (w : Word32) : readNat (word32 w) = w.toNat := by
  have h := w.isLt
  simp only [word32, be32, be24, be16, readNat, List.foldl_cons, List.foldl_nil, BitVec.toNat_ofNat]
  omega

/-- The certificates after the oldest was removed: the next becomes due, at no send (R167, R169). -/
def CertState.acked (x : CertState) (rest : List Certificate) : CertState :=
  { x with queue := rest, due := decide (rest ≠ []), sendCount := 0, lastSend := none }

/-- CERT_FULL out of the pause-cause set (R81). -/
def LaneControl.dropCertFull (l : LaneControl) : LaneControl := { l with causes := { l.causes with certFull := false } }

/-- The DONE reply to a CERT_ACK, and its notice (R169). -/
def acknowledged (n : Word32) (src : Nat) (s : State) : State := notice 0x0C (1 :: word32 n) (reply src 0x0E 0 [] s)

theorem removeOldest_acked {src : Nat} {c : Certificate} {rest : List Certificate} {s : State}
    (hq : s.certs.queue = c :: rest) : removeOldest (reply src 0x0E statusDone [] s) =
      certSendIfRoom ((acknowledged c.number src s).setCerts (s.certs.acked rest)) := by
  have only := (reply_speaks src 0x0E statusDone [] s).only
  have certs : (reply src 0x0E statusDone [] s).certs = s.certs := by rw [only]
  have noticed := notice_setCerts 0x0C (1 :: word32 c.number) { s.certs with queue := rest }
    (reply src 0x0E statusDone [] s)
  have due : (!rest.isEmpty) = decide (rest ≠ []) := by cases rest <;> rfl
  unfold removeOldest
  rw [certs, hq]
  dsimp only
  refine congrArg certSendIfRoom ((congrArg becomeOldest noticed).trans ?_)
  unfold becomeOldest CertState.acked
  rw [← due]
  rfl

/-- A CERT_ACK of the oldest certificate (R169). -/
theorem ackCertificate_oldest {n : Word32} {src : Nat} {c : Certificate} {rest : List Certificate} {s : State}
    (hq : s.certs.queue = c :: rest) (hn : c.number = n) : ackCertificate n src s = maybeReturn (certSendIfRoom
      (acknowledged n src ((s.setCerts (s.certs.acked rest)).setLane LaneControl.dropCertFull))) := by
  subst hn
  unfold ackCertificate
  rw [hq]
  dsimp only
  rw [if_pos rfl, removeOldest_acked hq]
  refine congrArg maybeReturn ((certSendIfRoom_setLane LaneControl.dropCertFull _).symm.trans (congrArg certSendIfRoom ?_))
  rw [acknowledged, acknowledged, reply_setLane, reply_setCerts, notice_setLane, notice_setCerts]

/-- What an acknowledge replaces with the send that follows it. -/
structure Handed (s t : State) : Prop where
  only : t = { s with station := t.station, certs := t.certs, live := t.live }
  count : t.live.certificates = s.live.certificates
  empty : s.certs.queue = [] → t.certs = s.certs
  certs : t.certs = s.certs ∨ t.certs = sentCerts s

theorem acknowledged_handed (n : Word32) (src : Nat) (s : State) :
    Handed s (certSendIfRoom (acknowledged n src s)) := by
  have speaks := (reply_speaks src 0x0E 0 [] s).trans (notice_speaks 0x0C (1 :: word32 n) _)
  rw [← acknowledged] at speaks
  have same : (acknowledged n src s).quantities = s.quantities := by
    rw [acknowledged, notice_eq, reply_eq]
  generalize acknowledged n src s = a at speaks same ⊢
  obtain ⟨only, ⟨m, live⟩, empty, certs⟩ := certSendIfRoom_only a
  generalize certSendIfRoom a = t at only live empty certs ⊢
  have ea := speaks.only
  have before : a.certs = s.certs := by rw [ea]
  have sent : sentCerts a = sentCerts s := by rw [sentCerts, sentCerts, before, ea]
  rw [before] at empty certs
  rw [sent] at certs
  refine ⟨?_, ?_, empty, certs⟩
  · rw [only, ea, same]
  · rw [live, overrunCount, speaks.counts]

/-- The frames of an acknowledge at a busy station port with room for two (R6, R169). -/
theorem acknowledged_queue {n : Word32} {src : Nat} {s : State} (hb : s.station.tx ≠ .idle)
    (hl : s.station.queue.length + 2 ≤ 32) :
    ∃ more, (certSendIfRoom (acknowledged n src s)).station.queue = s.station.queue ++
      [originate src 0x0B [0x0E, 0], originate 62 0x09 (0x0C :: 1 :: word32 n)] ++ more := by
  have replied := reply_busy_room src 0x0E 0 [] hb (by omega)
  have noticed := notice_busy_room 0x0C (1 :: word32 n) (s := reply src 0x0E 0 [] s) (by rw [replied]; exact hb)
    (by rw [replied, List.length_append, List.length_singleton]; omega)
  rw [← acknowledged, replied] at noticed
  obtain ⟨more, h⟩ := certSendIfRoom_appends (s := acknowledged n src s) (by rw [noticed]; exact hb)
  refine ⟨more, h.trans ?_⟩
  rw [noticed, List.append_assoc s.station.queue]
  rfl

/-! ### The waiting FINISH (R81, R101) -/

theorem finishStep_ends {x : StepEnd} {s : State} (h : (endStep x s).2 = none) :
    finishStep x s = (endStep x s).1 := by
  rw [finishStep, show engineFuel = 2047 + 1 from rfl]
  simp only [runEngine, h]

/-- EXIT entered from a FINISH whose certificate is queued (R84, R89). -/
structure FinishExited (s t : State) : Prop where
  only : t = { s with
    head := t.head, urgent := t.urgent, headPlace := t.headPlace, station := t.station, quantities := t.quantities
    lane := { s.lane with state := .exit, causes := onlyEstop s.lane.causes }, rollers := t.rollers, live := t.live
    eval := Evaluator.reset, engine := { EngineState.reset with pendingGuide := t.engine.pendingGuide } }
  count : t.live.certificates = s.live.certificates
  still : ∀ sd, (t.roller sd).still = true

theorem enterExit_finishExited (s : State) : FinishExited s (enterExit .stepEnd (concluded s)) := by
  have exit := enterExit_exited .stepEnd (concluded s)
  have done := concluded_concluded s
  generalize concluded s = d at exit done
  generalize enterExit .stepEnd d = t at exit
  have et := exit.only
  have ed := done.only
  refine ⟨?_, exit.count.trans done.count, fun sd => (exit.side sd).still⟩
  rw [et, ed]

/-- A FINISH that waited is taken up with a place free for its certificate (R81, R101). -/
theorem takeUp_finishes {v : VehicleRecord} {r : VehicleResults} {s : State} (hp : s.engine.phase = .suspendedContinue)
    (hk : currentKind s = some .finish) (hv : s.vehicle = some v) (hr : v.results = some r)
    (hl : s.certs.queue.length < 4) :
    ∃ c, takeUp s = enterExit .stepEnd (concluded c) ∧ Certified v r
      (guideStep (s.setEngine fun e => { e with phase := .running })) c := by
  obtain ⟨x, u, w, m, guided⟩ := guideStep_only (s.setEngine fun e => { e with phase := .running })
  have e : takeUp s = continueStep s := by rw [takeUp, hp]
  rw [e]
  unfold continueStep
  generalize guideStep (s.setEngine fun e => { e with phase := .running }) = a at guided
  have kind : currentKind a = some .finish := by rw [guided]; exact hk
  obtain ⟨c, queued, cert⟩ := queueCertificate_room (s := a) (by rw [guided]; exact hl) (by rw [guided]; exact hv) hr
  have ended := endStep_finish (s := c) (by rw [cert.only]; exact kind)
  have went : goOn a = (c, some completed) := by
    unfold goOn
    rw [kind]
    dsimp only
    rw [tryFinish, queued]
  refine ⟨c, ?_, cert⟩
  rw [went]
  dsimp only
  rw [finishStep_ends (by rw [ended]), ended]

/-- With no vehicle open, and in an exit wait, the lane stays in PAUSED too (R80). -/
theorem maybeReturn_waits {s : State} (h : s.lane.state ≠ .paused ∨ noCause s.lane.causes = false ∨ s.vehicle = none ∨
    s.lane.exitWait = true) : maybeReturn s = s := by
  rcases h with h | h | h | h
  · exact maybeReturn_stays (.inl h)
  · exact maybeReturn_stays (.inr h)
  · simp [maybeReturn, h]
  · simp [maybeReturn, h]

theorem maybeReturn_returns {s : State} (hs : s.lane.state = .paused) (hc : noCause s.lane.causes = true)
    (hv : s.vehicle.isSome = true) (hx : s.lane.exitWait = false) :
    maybeReturn s = takeUp (enterLane .testing .resumed id s) := by
  refine if_pos ?_
  rw [hs, hc, hv, hx]
  rfl

theorem onlyEstop_noCause {c : PauseCauses} (h : noCause c = true) : onlyEstop c = PauseCauses.empty := by
  have free : c.estop = false := by
    cases e : c.estop with
    | false => rfl
    | true => simp [noCause, e] at h
  rw [onlyEstop, free]
  rfl

/-- The lane that returned from CERT_FULL with its waiting FINISH completed (R81, R84). -/
structure ReturnedToExit (v : VehicleRecord) (r : VehicleResults) (s t : State) : Prop where
  lane : t.lane = { s.lane with state := .exit, causes := PauseCauses.empty }
  number : t.certs.number = s.certs.number + 1
  queue : t.certs.queue = s.certs.queue ++ [assemble (s.certs.number + 1) v r s.clock.live s.clock.hold]
  vehicle : t.vehicle = s.vehicle
  clock : t.clock = s.clock
  engine : t.engine = { EngineState.reset with pendingGuide := t.engine.pendingGuide }
  still : ∀ sd, (t.roller sd).still = true
  count : t.live.certificates = s.live.certificates + 1

theorem maybeReturn_exits {v : VehicleRecord} {r : VehicleResults} {s : State} (hs : s.lane.state = .paused)
    (hc : noCause s.lane.causes = true) (hx : s.lane.exitWait = false) (hv : s.vehicle = some v)
    (hr : v.results = some r) (hp : s.engine.phase = .suspendedContinue) (hk : currentKind s = some .finish)
    (hl : s.certs.queue.length < 4) : ReturnedToExit v r s (maybeReturn s) := by
  have entered := enterLane_entered id_speaks .testing .resumed s
  rw [maybeReturn_returns hs hc (by rw [hv]; rfl) hx]
  generalize enterLane .testing .resumed id s = t at entered ⊢
  have et := entered.only
  obtain ⟨c, taken, cert⟩ := takeUp_finishes (s := t) (by rw [et]; exact hp) (by rw [et]; exact hk)
    (by rw [et]; exact hv) hr (by rw [et]; exact hl)
  obtain ⟨x, u, w, m, guided⟩ := guideStep_only (t.setEngine fun e => { e with phase := .running })
  rw [guided] at cert
  have ec := cert.only
  have exited := enterExit_finishExited c
  rw [taken]
  generalize enterExit .stepEnd (concluded c) = d at exited ⊢
  have ed := exited.only
  have certs : d.certs = c.certs := by rw [ed]
  have before : t.certs = s.certs ∧ t.clock = s.clock := by rw [et]; exact ⟨rfl, rfl⟩
  have count : t.live.certificates = s.live.certificates := by rw [entered.counts]
  exact {
    lane := by
      rw [ed, ec]
      show ({ t.lane with state := .exit, causes := onlyEstop t.lane.causes } : LaneControl) = _
      rw [entered.lane, onlyEstop_noCause hc]
    number := by rw [certs, cert.number, ← before.1]; rfl
    queue := by rw [certs, cert.queue, ← before.1, ← before.2]; rfl
    vehicle := by rw [ed, ec, et]; rfl
    clock := by rw [ed, ec, et]; rfl
    engine := by rw [ed]
    still := exited.still
    count := by rw [exited.count, cert.count, ← count]; rfl }

/-! ### The statement -/

theorem exec_certAck {f : Frame} {n : Word32} {s : State} (hf : s.asks f (0x0E :: word32 n)) :
    exec .certAck s = .next (ackCertificate n f.src.toNat (s.dropFirst .station)) := by
  refine congrArg Host.Outcome.next ((onRequest_asks hf takeCertAck).trans ?_)
  rw [takeCertAck, if_neg (fun h => h rfl), readNat_word32, BitVec.ofNat_toNat, BitVec.setWidth_eq]

theorem exec_certNumberSet {f : Frame} {n : Word32} {s : State} (hf : s.asks f (0x0F :: word32 n)) :
    exec .certNumberSet s = .next (if s.vehicle.isSome = true ∨ s.certs.queue ≠ [] then
        reply f.src.toNat 0x0F 1 [] (s.dropFirst .station)
      else reply f.src.toNat 0x0F 0 [] ((s.dropFirst .station).setCerts { s.certs with number := n })) := by
  refine congrArg Host.Outcome.next ((onRequest_asks hf takeCertNumberSet).trans ?_)
  rw [takeCertNumberSet, if_neg (fun h => h rfl), readNat_word32, BitVec.ofNat_toNat, BitVec.setWidth_eq]
  refine if_congr ?_ rfl rfl
  rw [Bool.or_eq_true, Bool.not_eq_true', List.isEmpty_eq_false_iff]
  rfl

/-- Settles O36: the number asked for and the queue decide, and after an acknowledge what still holds the lane. -/
theorem certificatesAcknowledged : Obligations.CertificatesAcknowledged := by
  unfold Obligations.CertificatesAcknowledged
  intro f n s u
  refine ⟨fun hf => ⟨fun empty => ?_, fun c rest hq hn => ?_, fun c rest hq hn => ?_⟩,
    fun hf => ⟨fun busy => ?_, fun hv hq => ?_⟩⟩
  · rw [exec_certAck hf, ackCertificate, show u.certs.queue = [] from empty]
    rfl
  · rw [exec_certAck hf, ackCertificate, show u.certs.queue = c :: rest from hq]
    dsimp only
    rw [if_neg hn]
    rfl
  · intro causes removed
    have acked := ackCertificate_oldest (src := f.src.toNat) (s := u) hq hn
    have handed := acknowledged_handed n f.src.toNat ((u.setCerts (u.certs.acked rest)).setLane LaneControl.dropCertFull)
    have queued := acknowledged_queue (n := n) (src := f.src.toNat)
      (s := (u.setCerts (u.certs.acked rest)).setLane LaneControl.dropCertFull)
    have sent : exec .certSend (acknowledged n f.src.toNat
        ((u.setCerts (u.certs.acked rest)).setLane LaneControl.dropCertFull)) = .next (certSendIfRoom
          (acknowledged n f.src.toNat ((u.setCerts (u.certs.acked rest)).setLane LaneControl.dropCertFull))) := rfl
    rw [exec_certAck hf, acked]
    generalize certSendIfRoom (acknowledged n f.src.toNat
      ((u.setCerts (u.certs.acked rest)).setLane LaneControl.dropCertFull)) = t at handed queued sent ⊢
    have et := handed.only
    have lane : t.lane = { s.lane with causes } := by rw [et]; rfl
    have queue : t.certs.queue = rest := by rcases handed.certs with h | h <;> rw [h] <;> rfl
    have number : t.certs.number = s.certs.number := by rcases handed.certs with h | h <;> rw [h] <;> rfl
    refine ⟨fun stays => ?_, fun v r hs hc hx hv hr hp hk hl => ?_⟩
    · refine ⟨t, congrArg Host.Outcome.next (maybeReturn_waits ?_), sent, lane, fun none => ?_, fun some => ?_, queued, ?_⟩
      · rw [lane, show t.vehicle = s.vehicle by rw [et]; rfl]
        exact stays
      · exact handed.empty none
      · exact handed.certs
      · rw [et]
        rfl
    · have returned := maybeReturn_exits (s := t) (by rw [lane]; exact hs) (by rw [lane]; exact hc)
        (by rw [lane]; exact hx) (by rw [et]; exact hv) hr (by rw [et]; exact hp) (by rw [et]; exact hk)
        (by rw [queue]; exact hl)
      refine ⟨_, rfl, ?_, ?_, ?_, returned.vehicle.trans ?_, returned.clock.trans ?_, returned.engine, returned.still,
        returned.count.trans ?_⟩
      · rw [returned.lane, lane]
      · rw [returned.number, number]
      · rw [returned.queue, queue, number, et]
        rfl
      · rw [et]
        rfl
      · rw [et]
        rfl
      · rw [handed.count]
        rfl
  · rw [exec_certNumberSet hf, if_pos busy]
  · rw [exec_certNumberSet hf, if_neg (by simp [hv, hq])]
    rfl

end Sys2Proof.Machine
end

section
/-! The step that follows an ended one (R86, R89). -/

namespace Sys2Proof.Machine

/-- A step of the axle section that is runnable in the pass for an axle (R86). -/
def RunsAt (sec : List PlanStep) (park : List Nat) (axle i : Nat) : Prop :=
  ∃ p, sec[i]? = some p ∧ (p.parkOnly = false ∨ axle ∈ park)

theorem any_runnable_iff {sec : List PlanStep} {park : List Nat} {axle i : Nat} :
    (sec[i]?).any (runnable park axle) = true ↔ RunsAt sec park axle i := by
  simp only [Option.any_eq_true, runnable_iff, RunsAt]

theorem RunsAt.lt {sec : List PlanStep} {park : List Nat} {axle i : Nat} (h : RunsAt sec park axle i) :
    i < sec.length := by
  obtain ⟨p, hp, -⟩ := h
  exact (List.getElem?_eq_some_iff.mp hp).1

section
variable {sec : List PlanStep} {park : List Nat}

theorem firstRunnable_some {axle start i : Nat} (hs : start ≤ i) (hr : RunsAt sec park axle i)
    (first : ∀ j, start ≤ j → j < i → ¬ RunsAt sec park axle j) : firstRunnable sec park axle start = some i := by
  rw [firstRunnable, List.find?_range_eq_some]
  simp only [Bool.and_eq_true, decide_eq_true_eq, any_runnable_iff, List.mem_range, Bool.not_eq_true',
    ← Bool.not_eq_true]
  exact ⟨⟨hs, hr⟩, hr.lt, fun j hj h => first j h.1 hj h.2⟩

theorem firstRunnable_none {axle start : Nat} (none : ∀ i, start ≤ i → ¬ RunsAt sec park axle i) :
    firstRunnable sec park axle start = Option.none := by
  rw [firstRunnable, List.find?_eq_none]
  intro i _
  rw [Bool.and_eq_true, decide_eq_true_eq, any_runnable_iff]
  exact fun h => none i h.1 h.2

/-- The next pass that holds a runnable step is the first of the passes that hold one (R86). -/
theorem firstPass_some {k axle a i : Nat} (ha : axle ≤ a) (hk : a < axle + k) (hr : RunsAt sec park a i)
    (first : ∀ j, j < i → ¬ RunsAt sec park a j) (before : ∀ b j, axle ≤ b → b < a → ¬ RunsAt sec park b j) :
    firstPass sec park k axle = some (a, i) := by
  induction k generalizing axle with
  | zero => omega
  | succ k ih =>
    rw [firstPass]
    by_cases h : a = axle
    · subst h
      rw [firstRunnable_some (Nat.zero_le i) hr fun j _ => first j]
    · rw [firstRunnable_none fun j _ => before axle j (Nat.le_refl axle) (by omega)]
      exact ih (by omega) (by omega) fun b j hb => before b j (by omega)

theorem firstPass_none {k axle : Nat} (none : ∀ a i, axle ≤ a → a < axle + k → ¬ RunsAt sec park a i) :
    firstPass sec park k axle = Option.none := by
  induction k generalizing axle with
  | zero => rfl
  | succ k ih =>
    rw [firstPass, firstRunnable_none fun i _ => none axle i (Nat.le_refl axle) (by omega)]
    exact ih fun a i h1 h2 => none a i (by omega) (by omega)

variable {n axle start : Nat}

theorem findStep_inPass {i : Nat} (hs : start ≤ i) (hr : RunsAt sec park axle i)
    (first : ∀ j, start ≤ j → j < i → ¬ RunsAt sec park axle j) : findStep sec park n axle start = (axle, i) := by
  rw [findStep, firstRunnable_some hs hr first]

theorem findStep_nextPass {a i : Nat} (none : ∀ i, start ≤ i → ¬ RunsAt sec park axle i) (ha : axle < a) (hn : a ≤ n)
    (hr : RunsAt sec park a i) (first : ∀ j, j < i → ¬ RunsAt sec park a j)
    (before : ∀ b j, axle < b → b < a → ¬ RunsAt sec park b j) : findStep sec park n axle start = (a, i) := by
  rw [findStep, firstRunnable_none none, firstPass_some ha (by omega) hr first before]
  rfl

theorem findStep_finish (none : ∀ i, start ≤ i → ¬ RunsAt sec park axle i)
    (later : ∀ a j, axle < a → a ≤ n → ¬ RunsAt sec park a j) :
    findStep sec park n axle start = (0, sec.length) := by
  rw [findStep, firstRunnable_none none, firstPass_none fun a j h1 h2 => later a j h1 (by omega)]
  rfl

end

theorem axleSection_step {b : Bank} {plan i : Nat} {p : PlanStep} (h : (axleSection b plan)[i]? = some p) :
    (planSteps b plan)[i]? = some p := by
  obtain ⟨rest, steps⟩ : axleSection b plan <+: planSteps b plan := List.takeWhile_prefix _
  rw [← steps, List.getElem?_append_left (List.getElem?_eq_some_iff.mp h).1, h]

theorem currentStep_iff {p : PlanStep} {s : State} : currentStep s = some p ↔
    ∃ plan k, s.engine.plan = some plan ∧ s.engine.step = some k ∧ (planSteps s.working plan)[k]? = some p := by
  rw [currentStep, Option.bind_eq_some_iff]
  simp only [Option.bind_eq_some_iff, exists_and_left]

/-! ### The conclusion of a step (R89, R93, R98, R100) -/

/-- The open vehicle once a step of it ended with the outcome, without what the step writes (R98, R100). -/
def VehicleRecord.after (v : VehicleRecord) : StepOutcome → VehicleRecord
  | .ok | .skipped => v
  | .rep => { v with repeats := min (v.repeats + 1) 65535 }
  | .aborted => { v with aborted := true }

/-- What an outcome does before the results are written, and the Evaluator's sides closed (R93, R98, R100, R133). -/
structure OutcomeTaken (o : StepOutcome) (s t : State) : Prop where
  only : t = { s with head := t.head, urgent := t.urgent, headPlace := t.headPlace, station := t.station
                      vehicle := s.vehicle.map (·.after o), eval := t.eval, rollers := t.rollers, live := t.live }
  aborted : o = .aborted → t.live.aborted = s.live.aborted + 1
  still : o = .aborted → ∀ sd, (t.roller sd).still = true

theorem stopHeld_stopping (sd : Side) (s : State) : ∃ x u v y n r, stopHeld sd s = s.stopping sd x u v y n r := by
  unfold stopHeld
  split
  · obtain ⟨x, u, v, y, n, r, e, -⟩ := laneStop_only sd s
    exact ⟨x, u, v, y, n, r, e⟩
  · exact ⟨_, _, _, _, _, _, (setRoller_roller s sd).symm.trans (setRoller_eq_stopping _ _ _)⟩

theorem outcomeTaken_refl {o : StepOutcome} (h : o = .ok ∨ o = .skipped) (s : State) : OutcomeTaken o s s := by
  rcases h with rfl | rfl
  · exact ⟨congrArg (fun v => { s with vehicle := v }) Option.map_id'.symm, nofun, nofun⟩
  · exact ⟨congrArg (fun v => { s with vehicle := v }) Option.map_id'.symm, nofun, nofun⟩

theorem beforeResults_taken (k : StepKind) (o : StepOutcome) (s : State) :
    OutcomeTaken o s (beforeResults k o s) := by
  cases o with
  | ok => exact outcomeTaken_refl (.inl rfl) s
  | rep => exact ⟨rfl, nofun, nofun⟩
  | skipped =>
    unfold beforeResults
    dsimp only
    split
    · obtain ⟨x, u, v, y, n, l, el⟩ := stopHeld_stopping .left s
      obtain ⟨x', u', v', y', n', r, er⟩ := stopHeld_stopping .right (stopHeld .left s)
      have same := (outcomeTaken_refl (.inr rfl) s).only
      rw [er, el]
      exact ⟨congrArg (fun t : State => State.stopping (t.stopping .left x u v y n l) .right x' u' v' y' n' r) same,
        nofun, nofun⟩
    · exact outcomeTaken_refl (.inr rfl) s
  | aborted =>
    unfold beforeResults abortVehicle
    dsimp only
    have side := laneStopBoth_roller (State.count { s with vehicle := s.vehicle.map fun v => { v with aborted := true } }
      fun c => { c with aborted := c.aborted + 1 })
    obtain ⟨x, u, v, y, n, l, r, e, -⟩ := laneStopBoth_only
      (State.count { s with vehicle := s.vehicle.map fun v => { v with aborted := true } }
        fun c => { c with aborted := c.aborted + 1 })
    rw [e] at side ⊢
    exact ⟨rfl, fun _ => rfl, fun _ sd => (side sd).still⟩

theorem beforeEnd_taken (x : StepEnd) (k : StepKind) (s : State) : OutcomeTaken x.outcome s (beforeEnd x k s) := by
  have taken := beforeResults_taken k x.outcome s
  unfold beforeEnd
  dsimp only
  generalize beforeResults k x.outcome s = t at taken ⊢
  split
  · exact taken
  · exact ⟨congrArg closeSides taken.only, taken.aborted, taken.still⟩

/-- A step concluded: the outcome taken, the measurement dropped, the watches off, the batches empty, and of the
vehicle no more than an axle entry written (R89). -/
structure StepConcluded (o : StepOutcome) (s t : State) : Prop where
  only : t = { s with head := t.head, urgent := t.urgent, headPlace := t.headPlace, station := t.station
                      quantities := t.quantities, vehicle := t.vehicle, eval := Evaluator.reset, rollers := t.rollers
                      live := t.live }
  aborted : o = .aborted → t.live.aborted = s.live.aborted + 1
  still : o = .aborted → ∀ sd, (t.roller sd).still = true
  watch : ∀ sd, (t.roller sd).watch = none
  qty : ∀ q, (t.qty q).batch.values = [] ∧ t.qty q = { s.qty q with batch := (t.qty q).batch }
  vehicle : ∀ v, s.vehicle = some v → ∃ w, t.vehicle = some w ∧ w = { v.after o with axles := w.axles }
  repeated : o = .rep → t.vehicle = s.vehicle.map (·.after o)

/-- What the writing of results replaces (R89, items 1 to 4). -/
structure ResultsWritten (w : Option Written) (s t : State) : Prop where
  only : t = { s with station := t.station, quantities := t.quantities, vehicle := t.vehicle, eval := Evaluator.reset
                      rollers := (watchesOff s).rollers, live := t.live }
  aborted : t.live.aborted = s.live.aborted
  qty : ∀ q, (t.qty q).batch.values = [] ∧ t.qty q = { s.qty q with batch := (t.qty q).batch }
  vehicle : ∃ f : List AxleEntry → List AxleEntry, t.vehicle = s.vehicle.map fun v => { v with axles := f v.axles }
  unwritten : w = none → t.vehicle = s.vehicle

/-- The measurement dropped and the station told, whatever was written before (R89). -/
theorem resultsWritten_speaks {w : Option Written} {s a t : State} {f : List AxleEntry → List AxleEntry}
    (wrote : a = { s with vehicle := s.vehicle.map fun v => { v with axles := f v.axles } })
    (none : w = Option.none → a = s) (told : Speaks (flushBatches (watchesOff (resetEval a))) t) :
    ResultsWritten w s t := by
  have speaks := (flushBatches_speaks (watchesOff (resetEval a))).trans told
  have values : ∀ q, (t.qty q).batch.values = [] := fun q => told.emptied q (flushBatches_values _ q)
  have et := speaks.only
  have vehicle : t.vehicle = a.vehicle := by rw [et]; rfl
  refine ⟨?_, ?_, fun q => ⟨values q, ?_⟩, ⟨f, ?_⟩, fun h => ?_⟩
  · rw [et, wrote]
    rfl
  · rw [speaks.counts, wrote]
    rfl
  · rw [speaks.qty q, wrote]
    rfl
  · rw [vehicle, wrote]
  · rw [vehicle, none h]

theorem axleResultNotice_speaks (axle attempt : Nat) (w : Written) (s : State) :
    Speaks s (axleResultNotice axle attempt w s) := by
  unfold axleResultNotice
  exact notice_speaks _ _ s

theorem writeResults_written (x : StepEnd) (k : StepKind) (w : Option Written) (s : State) :
    ResultsWritten w s (writeResults x k w s) := by
  unfold writeResults
  cases w with
  | none =>
    refine resultsWritten_speaks (a := s) (f := id) ?_ (fun _ => rfl) (stepEndNotice_speaks _ _ _ _)
    exact congrArg (fun v => { s with vehicle := v }) Option.map_id'.symm
  | some r =>
    exact resultsWritten_speaks (a := s.setAxle s.engine.axle (writeEntry r))
      (f := fun l => l.modify (s.engine.axle - 1) (writeEntry r)) rfl nofun
      ((stepEndNotice_speaks _ _ _ _).trans (axleResultNotice_speaks _ _ _ _))

theorem concludeStep_concluded (x : StepEnd) (k : StepKind) (s : State) :
    StepConcluded x.outcome s (concludeStep x k s) := by
  have taken := beforeEnd_taken x k s
  unfold concludeStep
  dsimp only
  generalize beforeEnd x k s = a at taken ⊢
  have ea := taken.only
  have written := writeResults_written x k
    (if x.outcome == .rep then none else results (x.ending == .completed) a) a
  generalize writeResults x k _ a = t at written ⊢
  have et := written.only
  have side : ∀ sd, t.roller sd = (a.roller sd).watchOff := fun sd =>
    (show t.roller sd = (watchesOff a).roller sd by rw [et]; rfl).trans (watchesOff_roller a sd)
  obtain ⟨f, vehicle⟩ := written.vehicle
  have open_ : a.vehicle = s.vehicle.map (·.after x.outcome) := by rw [ea]
  refine ⟨?_, fun h => ?_, fun h sd => ?_, fun sd => ?_, fun q => ⟨(written.qty q).1, ?_⟩, fun v hv => ?_, fun h => ?_⟩
  · rw [et, ea]
  · rw [written.aborted, taken.aborted h]
  · rw [side]
    exact taken.still h sd
  · rw [side]
    rfl
  · have same : a.qty q = s.qty q := by rw [ea]; rfl
    rw [← same]
    exact (written.qty q).2
  · rw [vehicle, open_, hv]
    exact ⟨_, rfl, rfl⟩
  · rw [written.unwritten (if_pos (beq_iff_eq.mpr h)), open_]

end Sys2Proof.Machine
end

section
/-! STEP_TIMEOUT (R97 to R100): how the step ends, what follows it, and the statements of O46 and O47. -/

namespace Sys2Proof.Machine

/-! ### The step that follows is made current (R86, R89 item 5) -/

/-- The Step Engine with a step made current, to be begun by an occasion. -/
def EngineState.current (e : EngineState) (axle step : Nat) (o : BeginOccasion) : EngineState :=
  { e with axle, step := some step, phase := .waiting, waitOccasion := o, waitTaken := false,
           marks := { left := .clear, right := .clear } }

/-- The Step Engine with the next step of the plan made current, or FINISH (R86, R89). -/
def EngineState.onward (e : EngineState) (v : VehicleRecord) (plan k : Nat) (b : Bank) : EngineState :=
  let next := findStep (axleSection b plan) v.park v.n e.axle (k + 1)
  e.current next.1 next.2 .advance

theorem nextStep_rep {k : Nat} {s : State} (hk : s.engine.step = some k) :
    nextStep .rep s = ({ s with engine := s.engine.current s.engine.axle k .rep }, .rep) := by
  unfold nextStep
  dsimp only
  rw [hk]
  rfl

theorem nextStep_aborted (s : State) : nextStep .aborted s = ({ s with
    engine := s.engine.current 0 (axleSection s.working (s.engine.plan.getD 0)).length .advance }, .advance) := rfl

theorem nextStep_onward {o : StepOutcome} {plan k : Nat} {v : VehicleRecord} {s : State} (ho : o = .ok ∨ o = .skipped)
    (hp : s.engine.plan = some plan) (hk : s.engine.step = some k) (hv : s.vehicle = some v) :
    nextStep o s = ({ s with engine := s.engine.onward v plan k s.working }, .advance) := by
  have found : findStep (axleSection s.working (s.engine.plan.getD 0)) (s.vehicle.elim [] (·.park))
      (s.vehicle.elim 0 (·.n)) s.engine.axle (s.engine.step.getD 0 + 1) =
      findStep (axleSection s.working plan) v.park v.n s.engine.axle (k + 1) := by
    rw [hp, hk, hv]
    rfl
  rw [EngineState.onward, ← found]
  rcases ho with rfl | rfl
  · rfl
  · rfl

theorem VehicleRecord.after_onward {o : StepOutcome} (h : o = .ok ∨ o = .skipped) (v : VehicleRecord) :
    v.after o = v := by
  rcases h with rfl | rfl
  · rfl
  · rfl

/-- The vehicle keeps its number of axles and its park axles to the next step. -/
theorem StepConcluded.onward {o : StepOutcome} {plan k : Nat} {v : VehicleRecord} {s c : State}
    (h : StepConcluded o s c) (ho : o = .ok ∨ o = .skipped) (hp : s.engine.plan = some plan)
    (hk : s.engine.step = some k) (hv : s.vehicle = some v) :
    nextStep o c = ({ c with engine := s.engine.onward v plan k s.working }, .advance) := by
  have engine : c.engine = s.engine := by rw [h.only]
  have working : c.working = s.working := by rw [h.only]
  obtain ⟨w, hw, same⟩ := h.vehicle v hv
  have kept : w.park = v.park ∧ w.n = v.n := by
    rw [same, VehicleRecord.after_onward ho]
    exact ⟨rfl, rfl⟩
  rw [nextStep_onward ho (by rw [engine]; exact hp) (by rw [engine]; exact hk) hw, engine, working, EngineState.onward,
    kept.1, kept.2, EngineState.onward]

/-! ### The end of a step other than FINISH (R78, R89) -/

section
variable {x : StepEnd} {k : StepKind} {o : BeginOccasion} {e : EngineState} {s : State}

theorem endStep_next {c n : State} (hk : currentKind s = some k) (hf : k ≠ .finish) (hc : concludeStep x k s = c)
    (hn : nextStep x.outcome c = (n, o)) : endStep x s =
      if n.lane.state = .testing then (n, some o) else (enterLane .paused .stepEnd id n, none) := by
  unfold endStep
  rw [hk]
  dsimp only
  rw [hc, afterStep, if_neg (fun h => hf (beq_iff_eq.mp h)), hn]
  exact if_congr beq_iff_eq rfl rfl

/-- Outside TESTING the next step waits in PAUSED (R78). -/
theorem finishStep_waits (hk : currentKind s = some k) (hf : k ≠ .finish) (hs : s.lane.state ≠ .testing)
    (hn : ∀ c, StepConcluded x.outcome s c → nextStep x.outcome c = ({ c with engine := e }, o)) :
    ∃ c, StepConcluded x.outcome s c ∧ LaneEntered .paused { c with engine := e } (finishStep x s) := by
  have concluded := concludeStep_concluded x k s
  generalize hc : concludeStep x k s = c at concluded
  have lane : c.lane = s.lane := by rw [concluded.only]
  have ended := endStep_next hk hf hc (hn c concluded)
  rw [if_neg (by rw [lane]; exact hs)] at ended
  refine ⟨c, concluded, ?_⟩
  have ends : (endStep x s).2 = none := by rw [ended]
  have exited : (endStep x s).1 = enterLane .paused .stepEnd id { c with engine := e } := by rw [ended]
  rw [finishStep_ends ends, exited]
  exact enterLane_entered id_speaks .paused .stepEnd _

theorem finishStep_begins {n : State} (h : endStep x s = (n, some o)) (hb : (beginStep o n).2 = none) :
    finishStep x s = startStep o n := by
  rw [startStep_none hb, finishStep, show engineFuel = 2046 + 1 + 1 from rfl]
  simp only [runEngine, h, hb]

/-- In TESTING the next step is begun, and an AXLE_IN, AXLE_OUT or WEIGH that finds no cause then runs (R88, R89). -/
theorem finishStep_runs {q : PlanStep} (hk : currentKind s = some k) (hf : k ≠ .finish) (hs : s.lane.state = .testing)
    (hn : ∀ c, StepConcluded x.outcome s c → nextStep x.outcome c = ({ c with engine := e }, o))
    (hq : currentStep { s with engine := e } = some q) (waits : q.kind = .axleIn ∨ q.kind = .axleOut ∨ q.kind = .weigh)
    (fresh : ∀ y ∈ neededBy q.kind, (mapped s y).isSome = true → (s.qty y).stale = false)
    (cool : anyOvertemp s = false) :
    ∃ c head urgent place station n guide, StepConcluded x.outcome s c ∧ finishStep x s = { c with
      head := head, urgent := urgent, headPlace := place, station := station, live := overrunCount c.live .station n
      engine := { e.begun o with pendingGuide := guide }
      eval := if q.kind = .weigh then { Evaluator.reset with activity := .settling } else Evaluator.reset } := by
  have concluded := concludeStep_concluded x k s
  have flags := (concludeStep_along x k s).flags
  generalize hc : concludeStep x k s = c at concluded flags
  have ec := concluded.only
  have ended := endStep_next hk hf hc (hn c concluded)
  rw [if_pos (show c.lane.state = .testing by rw [ec]; exact hs)] at ended
  have step : currentStep { c with engine := e } = some q := by rw [ec]; exact hq
  have fresh' : ∀ y ∈ neededBy q.kind, (mapped { c with engine := e } y).isSome = true →
      (State.qty { c with engine := e } y).stale = false := fun y hy hm => by
    show (c.qty y).stale = false
    rw [(concluded.qty y).2]
    rw [ec] at hm
    exact fresh y hy hm
  have cool' : anyOvertemp { c with engine := e } = false := by
    show ((c.roller .left).overtemp || (c.roller .right).overtemp) = false
    rw [(flags .left).2, (flags .right).2]
    exact cool
  have eval : c.eval = Evaluator.reset := by rw [ec]
  have begun := beginStep_eq (o := o) step (fun _ => .inr (neededStale_fresh step fresh')) (fun _ => .inr cool')
  rw [beginActions_waits waits] at begun
  obtain ⟨head, urgent, place, station, n, guide, only⟩ := announced_only q o { c with engine := e }
  refine ⟨c, head, urgent, place, station, n, guide, concluded, ?_⟩
  rw [finishStep_begins ended (by rw [begun]), startStep_waits step waits fresh' cool', only, ← eval]

end

/-! ### The end by the timeout's action (R97 to R100) -/

/-- The outcome of a step ended by its timeout action (R98 to R100). -/
theorem byAction_eq (en : StepEnding) (p : PlanStep) (s : State) :
    byAction en p s = { ending := en, outcome := match p.action with
      | .rep => if s.engine.attempt - 1 < p.repeatLimit then .rep else .aborted
      | .skip => .skipped
      | .abort => .aborted } := by
  unfold byAction
  cases p.action <;> rfl

theorem exec_stepTimeout_waits {p : PlanStep} {s : State} (hp : currentStep s = some p)
    (h : s.engine.elapsed < p.timeout) : exec .stepTimeout s = .next s := by
  have early : ¬ (s.engine.phase == .running && p.timeout != 0 && decide (p.timeout ≤ s.engine.elapsed)) = true := by
    simp [Nat.not_le.mpr h]
  show Host.Outcome.next (timeoutExpiry s) = .next s
  unfold timeoutExpiry
  rw [hp]
  exact congrArg Host.Outcome.next (if_neg early)

theorem exec_stepTimeout_ends {p : PlanStep} {s : State} (hp : currentStep s = some p) (h0 : p.timeout ≠ 0)
    (h : p.timeout ≤ s.engine.elapsed) (hr : s.engine.phase = .running) :
    exec .stepTimeout s = .next (finishStep (byAction .timeout p s) s) := by
  show Host.Outcome.next (timeoutExpiry s) = _
  unfold timeoutExpiry
  rw [hp]
  refine congrArg Host.Outcome.next (if_pos ?_)
  simp [hr, h0, h]

/-! ### The statements -/

theorem currentKind_of_step {p : PlanStep} {s : State} (h : currentStep s = some p) : currentKind s = some p.kind := by
  rw [currentKind, h, Option.map_some]

/-- Settles O46: the end by the action, the search for the next step, and the begin or the wait that follows. -/
theorem stepTimeoutRepeats : Obligations.StepTimeoutRepeats := by
  unfold Obligations.StepTimeoutRepeats
  refine ⟨fun p v s hp => ⟨exec_stepTimeout_waits hp, fun h0 h hr => ?_, fun hkind act h0 h hr left hs hv cool fresh => ?_⟩,
    fun sec park n axle start => ⟨fun i hi run first => findStep_inPass hi run first,
      fun none => ⟨fun a i ha hn run first before => findStep_nextPass none ha hn run first before,
        fun later => findStep_finish none later⟩⟩,
    fun x plan k v p s hplan hk hv hp hf ho => ⟨fun hs => ?_, fun q hs hq waits cool fresh => ?_⟩⟩
  · exact (exec_stepTimeout_ends hp h0 h hr).trans
      (congrArg (fun x => Host.Outcome.next (finishStep x s)) (byAction_eq .timeout p s))
  · obtain ⟨plan, k, -, hk, -⟩ := currentStep_iff.mp hp
    have rep : byAction .timeout p s = { ending := .timeout, outcome := .rep } := by
      rw [byAction_eq, act]
      dsimp only
      rw [if_pos left]
    obtain ⟨c, head, urgent, place, station, n, guide, concluded, only⟩ := finishStep_runs
      (x := { ending := .timeout, outcome := .rep }) (e := s.engine.current s.engine.axle k .rep) (o := .rep) (q := p)
      (currentKind_of_step hp) (by rw [hkind]; decide) hs
      (fun c concluded => by
        have engine : c.engine = s.engine := by rw [concluded.only]
        rw [nextStep_rep (by rw [engine]; exact hk), engine])
      (by rw [← hp, currentStep, currentStep, hk]; rfl) (.inl hkind) (by rw [hkind]; exact fresh) cool
    have ec := concluded.only
    have repeated := concluded.repeated rfl
    rw [exec_stepTimeout_ends hp h0 h hr, rep]
    refine ⟨_, rfl, ?_, ?_, ?_, ?_, ?_⟩
    · rw [only]
      show c.vehicle = _
      rw [repeated, hv]
      rfl
    · rw [only]
      show ({ (s.engine.current s.engine.axle k .rep).begun .rep with pendingGuide := guide } : EngineState) = _
      rw [EngineState.begun, EngineState.current, ← hk, ← hr]
      rfl
    · rw [only]
      show c.lane = s.lane
      rw [ec]
    · rw [only, if_neg (by rw [hkind]; decide)]
    · rw [only, ec]
  · obtain ⟨c, concluded, entered⟩ := finishStep_waits (x := x) (currentKind_of_step hp) hf (by rw [hs]; decide)
      fun c concluded => concluded.onward ho hplan hk hv
    have lane : c.lane = s.lane := by rw [concluded.only]
    obtain ⟨w, hw, same⟩ := concluded.vehicle v hv
    rw [VehicleRecord.after_onward ho] at same
    rw [entered.only, lane]
    exact ⟨rfl, rfl, w, hw, same⟩
  · obtain ⟨c, head, urgent, place, station, n, guide, concluded, only⟩ := finishStep_runs (x := x) (q := q)
      (currentKind_of_step hp) hf hs (fun c concluded => concluded.onward ho hplan hk hv)
      (currentStep_iff.mpr ⟨plan, _, hplan, rfl, axleSection_step hq⟩) waits fresh cool
    have lane : c.lane = s.lane := by rw [concluded.only]
    obtain ⟨w, hw, same⟩ := concluded.vehicle v hv
    rw [VehicleRecord.after_onward ho] at same
    rw [only]
    exact ⟨rfl, lane, w, hw, same⟩

/-- Settles O47: the vehicle is aborted, its results written, and FINISH left to wait. -/
theorem stepTimeoutAborts : Obligations.StepTimeoutAborts := by
  unfold Obligations.StepTimeoutAborts
  intro p v s hp hf act h0 h hr hs hv
  have aborts : byAction .timeout p s = { ending := .timeout, outcome := .aborted } := by
    rw [byAction_eq]
    rcases act with act | ⟨act, spent⟩
    · rw [act]
    · rw [act]
      dsimp only
      rw [if_neg (Nat.not_lt.mpr spent)]
  obtain ⟨c, concluded, entered⟩ := finishStep_waits (x := { ending := .timeout, outcome := .aborted })
    (e := s.engine.current 0 (axleSection s.working (s.engine.plan.getD 0)).length .advance) (o := .advance)
    (currentKind_of_step hp) hf (by rw [hs]; decide)
    (fun c concluded => by
      have engine : c.engine = s.engine := by rw [concluded.only]
      have working : c.working = s.working := by rw [concluded.only]
      rw [nextStep_aborted, engine, working])
  have ec := concluded.only
  obtain ⟨w, hw, same⟩ := concluded.vehicle v hv
  have live := entered.counts
  rw [exec_stepTimeout_ends hp h0 h hr, aborts]
  generalize finishStep _ s = t at entered live ⊢
  have et := entered.only
  have side : ∀ sd, t.roller sd = c.roller sd := fun sd => by rw [et]; rfl
  refine ⟨t, w, rfl, ?_, same, ?_, ?_, ?_, ?_, ?_, ?_, ?_, fun sd => ?_, ?_, ?_, ?_, ?_⟩
  · rw [et]
    exact hw
  · rw [et]
    rfl
  · rw [et]
    rfl
  · rw [et]
    rfl
  · rw [et]
    rfl
  · rw [entered.lane, ec]
  · rw [live]
    exact concluded.aborted rfl
  · rw [et, ec]
  · rw [side]
    exact ⟨concluded.still rfl sd, concluded.watch sd⟩
  · rw [et, ec]
  · rw [et, ec]
  · rw [et, ec]
  · rw [et, ec]

end Sys2Proof.Machine
end

section
/-! The end of the spin-up window, and what a running step does with a report (R92 to R95, R114, R133). -/

namespace Sys2Proof.Machine

/-! ### The spin-up window (R114) -/

/-- The side once its spin-up window has run out, and its STOP has been offered (R114). -/
def spunOut (sd : Side) (s : State) : State :=
  (offerStop sd s).1.setRoller sd { (offerStop sd s).1.roller sd with
    state := .coasting, sendTime := none, watch := none, window := 0 }

theorem spinUpExpiry_eq (sd : Side) (s : State) : spinUpExpiry sd s = (spunOut sd s, [.spinUpNg sd]) := by
  unfold spinUpExpiry stopSpinUp
  dsimp only
  rw [roller_setRoller, setRoller_setRoller]
  rfl

theorem spunOut_engine (sd : Side) (s : State) : (spunOut sd s).engine = s.engine := offerStop_engine sd s

theorem spunOut_lane (sd : Side) (s : State) : (spunOut sd s).lane = s.lane := offerStop_lane sd s

section
variable {sd : Side} {sent : Word32} {s : State}

theorem exec_spinUpWindowExpiry (hs : (s.roller sd).state = .spinningUp) (ht : (s.roller sd).sendTime = some sent) :
    exec (.spinUpWindowExpiry sd) s = .next (if (settings s).spinUpWindow ≤ (s.clock.laneTime - sent).toNat then
      takeReports [.spinUpNg sd] (spunOut sd s) else s) := by
  show Host.Outcome.next (spinUpWindowEnds sd s) = _
  unfold spinUpWindowEnds
  rw [hs, ht]
  dsimp only
  rw [spinUpExpiry_eq]
  rfl

end

/-! ### When a step looks at a report -/

theorem runningKind_iff {s : State} {k : StepKind} :
    runningKind s k = true ↔ s.engine.phase = .running ∧ currentKind s = some k := by
  rw [runningKind, Bool.and_eq_true, beq_iff_eq, beq_iff_eq]

theorem spinMark_iff {sd : Side} {m : SideMark} {s : State} : spinMark sd m s = true ↔
    (s.engine.phase = .running ∧ currentKind s = some .spin) ∧ s.engine.marks.get sd = m := by
  rw [spinMark, Bool.and_eq_true, beq_iff_eq, runningKind_iff]

theorem measuringRuns_iff {s : State} : measuringRuns s = true ↔
    s.engine.phase = .running ∧ ∃ k, currentKind s = some k ∧ (k = .service ∨ k = .hold ∨ k = .park) := by
  simp only [measuringRuns, Bool.and_eq_true, beq_iff_eq, Option.any_eq_true, isMeasuring_iff]

/-! ### SPIN (R92, R93) -/

section
variable {sd : Side} {s : State}

theorem bothUp_setMark : bothUp (setMark sd .up s) = true ↔ s.engine.marks.get (otherSide sd) = .up := by
  rw [bothUp, Bool.and_eq_true, beq_iff_eq, beq_iff_eq]
  cases sd with
  | left => exact ⟨fun h => h.2, fun h => ⟨rfl, h⟩⟩
  | right => exact ⟨fun h => h.1, fun h => ⟨h, rfl⟩⟩

theorem takeReport_spinUpOk (h : spinMark sd .requested s = true) : takeReport (.spinUpOk sd) s =
    if s.engine.marks.get (otherSide sd) = .up then finishStep completed (setMark sd .up s) else setMark sd .up s :=
  (if_pos h).trans (if_congr bothUp_setMark rfl rfl)

theorem spinFails_eq {p : PlanStep} (hp : currentStep s = some p) : spinFails s = finishStep (byAction .ng p s) s := by
  rw [spinFails, hp]

/-- The START that SPIN asks for a side that has come to rest (R92). -/
def startAsked (sd : Side) (s : State) : State × List Report := judgeStart .sequence sd (setMark sd .requested s)

theorem takeReport_standstill_spin (h : spinMark sd .waitingStandstill s = true) : takeReport (.standstill sd) s =
    if (startAsked sd s).2.isEmpty = true then (startAsked sd s).1 else spinFails (startAsked sd s).1 := if_pos h

/-- The START of a side at rest is refused at an emergency stop, and on overtemperature (R108). -/
theorem startAsked_refused (h : s.rollers.estop = true ∨ (s.roller sd).overtemp = true) :
    startAsked sd s = (setMark sd .requested s, [.refused sd]) := by
  have barred : ∃ why, refusal .sequence sd (setMark sd .requested s) = some why := by
    rw [refusal_sequence]
    by_cases e : s.rollers.estop = true
    · exact ⟨_, if_pos e⟩
    · exact ⟨_, (if_neg e).trans (if_pos (h.resolve_left e))⟩
  obtain ⟨why, refused⟩ := barred
  exact (judgeStart_refused refused).trans (if_neg (by decide))

theorem startAsked_taken (hs : (s.roller sd).state = .stopped) (he : s.rollers.estop = false)
    (ho : (s.roller sd).overtemp = false) : refusal .sequence sd (setMark sd .requested s) = none := by
  have estop : ¬ (setMark sd .requested s).rollers.estop = true := fun h => Bool.false_ne_true (he.symm.trans h)
  have hot : ¬ ((setMark sd .requested s).roller sd).overtemp = true := fun h => Bool.false_ne_true (ho.symm.trans h)
  have stopped : ((setMark sd .requested s).roller sd).state = .stopped := hs
  rw [refusal_sequence, if_neg estop, if_neg hot, if_neg (by rw [stopped]; decide), if_pos stopped]

theorem startAsked_held (hs : (s.roller sd).state = .stopped) (he : s.rollers.estop = false)
    (ho : (s.roller sd).overtemp = false) (hl : permitted s sd = false) : startAsked sd s =
      (policyNotice sd .sequence .held (some .startRules) ((setMark sd .requested s).setRoller sd { s.roller sd with
        state := .held, held := some { origin := .sequence, since := s.clock.laneTime }, testDue := false }), []) :=
  judgeStart_held (startAsked_taken hs he ho) hl

theorem startAsked_offered (hs : (s.roller sd).state = .stopped) (he : s.rollers.estop = false)
    (ho : (s.roller sd).overtemp = false) (hl : permitted s sd = true) (hb : s.head.tx ≠ .idle)
    (hq : s.head.queue.length < 16) : startAsked sd s = ({ (setMark sd .requested s).setRoller sd
        (s.roller sd).started with
      head := { s.head with queue := s.head.queue ++ [startFrame ((cabinetNode s).getD 0) sd] } }, []) :=
  (judgeStart_permitted (startAsked_taken hs he ho) hl).trans (offerStart_busy hb hq)

/-! ### STOP (R95) -/

theorem takeReport_standstill_stop (hm : spinMark sd .waitingStandstill s = false)
    (h : runningKind s .stop = true) : takeReport (.standstill sd) s =
      if (s.roller .left).state = .stopped ∧ (s.roller .right).state = .stopped then finishStep completed s else s := by
  refine (if_neg (by rw [hm]; decide)).trans (if_congr ?_ rfl rfl)
  rw [h, Bool.true_and]
  exact bothStopped_iff s

/-! ### The measuring steps (R94, R133) -/

theorem EvalSide.active_iff {x : EvalSide} : x.active = true ↔ x.phase = .waitingEngage ∨ x.phase = .engaged := by
  rw [EvalSide.active, Bool.or_eq_true, beq_iff_eq, beq_iff_eq]

/-- A side that is stopped is measured no more, so the other side alone decides whether the step ends (R94). -/
theorem sidesEnded_endStopped :
    sidesEnded (endStopped sd s) = !(s.eval.sides.get (otherSide sd)).active := by
  have both : sidesEnded (endStopped sd s) = (!((endStopped sd s).eval.sides.get sd).active &&
      !((endStopped sd s).eval.sides.get (otherSide sd)).active) := by
    cases sd with
    | left => rfl
    | right => exact Bool.and_comm _ _
  rw [both]
  unfold endStopped
  dsimp only
  split
  · have own : (((s.setEval sd ((s.eval.sides.get sd).endAs .stopped)).eval.sides).get sd).active = false :=
      congrArg EvalSide.active (Pair.get_set _ _ _)
    have other := Pair.get_set_other s.eval.sides sd ((s.eval.sides.get sd).endAs .stopped)
    rw [own, Bool.not_false, Bool.true_and]
    exact congrArg (fun x : EvalSide => !x.active) other
  · next h => rw [(Bool.not_eq_true _).mp h, Bool.not_false, Bool.true_and]

theorem takeReport_leftRunning_measuring (h : measuringRuns s = true) (hm : spinMark sd .up s = false) :
    takeReport (.leftRunning sd) s = if (s.eval.sides.get (otherSide sd)).active = true then endStopped sd s
      else finishStep completed (endStopped sd s) := by
  have runs : measuringRuns (endStopped sd s) = true := by
    unfold endStopped
    dsimp only
    split <;> exact h
  refine (if_neg (by rw [hm]; decide)).trans ((if_pos h).trans ?_)
  unfold endIfMeasured
  rw [runs, sidesEnded_endStopped, Bool.true_and]
  cases (s.eval.sides.get (otherSide sd)).active <;> rfl

/-! ### Reports that no running step waits for -/

theorem takeReport_unrequested (h : spinMark sd .requested s = false) : takeReport (.spinUpOk sd) s = s ∧
    takeReport (.spinUpNg sd) s = s ∧ takeReport (.refused sd) s = s := by
  have none : ¬ spinMark sd .requested s = true := by rw [h]; decide
  exact ⟨if_neg none, if_neg none, if_neg none⟩

theorem takeReport_standstill_unasked (h : spinMark sd .waitingStandstill s = false)
    (hr : runningKind s .stop = false) : takeReport (.standstill sd) s = s := by
  simp only [takeReport, h, hr, Bool.false_and, Bool.false_eq_true, if_false]

theorem takeReport_leftRunning_unasked (h : spinMark sd .up s = false) (hr : measuringRuns s = false) :
    takeReport (.leftRunning sd) s = s := by
  simp only [takeReport, h, hr, Bool.false_eq_true, if_false]

end

/-! ### The exit wait (R75) -/

theorem exitReady_waits {s : State}
    (h : ¬ ((s.roller .left).state = .stopped ∧ (s.roller .right).state = .stopped)) : exitReady s = s := by
  have moving : bothStopped s = false := (Bool.not_eq_true _).mp (mt (bothStopped_iff s).mp h)
  simp [exitReady, moving]

theorem exitReady_exits {s : State} (hx : s.lane.exitWait = true) (hh : s.lane.state ≠ .halted)
    (hs : (s.roller .left).state = .stopped ∧ (s.roller .right).state = .stopped) :
    exitReady s = enterExit .exitReady (s.setLane fun l => { l with exitWait := false }) := by
  refine if_pos ?_
  rw [hx, (bothStopped_iff s).mpr hs]
  simp [hh]

/-- The exit that ends the wait asks nothing of sides that are at rest (R75, R84). -/
theorem exitReady_left {s : State} (hx : s.lane.exitWait = true) (hh : s.lane.state ≠ .halted)
    (hs : (s.roller .left).state = .stopped ∧ (s.roller .right).state = .stopped) :
    (exitReady s).lane = { s.lane with state := .exit, exitWait := false, causes := onlyEstop s.lane.causes } ∧
      (exitReady s).rollers = s.rollers ∧ (exitReady s).vehicle = s.vehicle := by
  have only := (enterExit_exited .exitReady (s.setLane fun l => { l with exitWait := false })).only
  have rest : ∀ sd, (s.roller sd).state = .stopped := fun sd => by
    cases sd with
    | left => exact hs.1
    | right => exact hs.2
  have rollers := enterExit_rollers (s := s.setLane fun l => { l with exitWait := false }) .exitReady rest
  rw [exitReady_exits hx hh hs]
  refine ⟨?_, rollers, ?_⟩
  · rw [only]
    rfl
  · rw [only]
    rfl

/-! ### The statement -/

theorem spinMark_other {sd : Side} {m : SideMark} {p : PlanStep} {s : State} (hp : currentStep s = some p)
    (hk : p.kind ≠ .spin) : spinMark sd m s = false := by
  refine (Bool.not_eq_true _).mp fun marked => hk ?_
  have kind := (spinMark_iff.mp marked).1.2
  rw [currentKind_of_step hp] at kind
  exact Option.some.inj kind

end Sys2Proof.Machine

namespace Sys2Proof
open Machine

/-- Settles O43: the window, the reports by the step that runs, the reports that none waits for, and the exit wait. -/
theorem spinUpWindowEnds : Obligations.SpinUpWindowEnds := by
  unfold Obligations.SpinUpWindowEnds
  refine ⟨fun sd sent s hs ht => ?_, fun sd p s hp hr => ?_, fun sd s => ?_, fun r s => ?_⟩
  · have run := exec_spinUpWindowExpiry hs ht
    refine ⟨fun early => ?_, fun late => ?_, fun late idle none => ?_⟩
    · rw [run, if_neg (Nat.not_le.mpr early)]
    · rw [run, if_pos late]
      rfl
    · rw [run, if_pos late, takeReports_idle (by rw [spunOut_engine]; exact idle) (by rw [spunOut_lane]; exact none)]
      rfl
  · have kind := currentKind_of_step hp
    have runs : ∀ {k}, p.kind = k → s.engine.phase = .running ∧ currentKind s = some k := fun h => ⟨hr, h ▸ kind⟩
    intro mark marked finished ng x asked
    have failed : ∀ m, spinFails (marked m) = ng (marked m) := fun m => by
      have step : currentStep (marked m) = some p := hp
      exact (spinFails_eq step).trans (congrArg (fun y => finishStep y (marked m)) (byAction_eq .ng p (marked m)))
    have failed' : spinFails s = ng s :=
      (spinFails_eq hp).trans (congrArg (fun y => finishStep y s) (byAction_eq .ng p s))
    refine ⟨fun hk hm => ?_, fun hk hm hs => ?_, fun hk => ?_, fun hk hm => ?_, fun hk => ?_⟩
    · have spins : spinMark sd .requested s = true := spinMark_iff.mpr ⟨runs hk, hm⟩
      have ok := takeReport_spinUpOk spins
      exact ⟨fun up => ok.trans (if_pos up), fun down => ok.trans (if_neg down), (if_pos spins).trans failed',
        (if_pos spins).trans failed'⟩
    · have report := takeReport_standstill_spin (spinMark_iff.mpr ⟨runs hk, hm⟩)
      refine ⟨fun barred => ?_, fun he ho hl => ?_, fun he ho hl hb hq => ?_⟩
      · rw [report, startAsked_refused barred]
        exact (if_neg Bool.false_ne_true).trans (failed .requested)
      · rw [report, startAsked_held hs he ho hl]
        rfl
      · rw [report, startAsked_offered hs he ho hl hb hq]
        rfl
    · exact takeReport_standstill_stop (spinMark_other hp (by rw [hk]; decide)) (runningKind_iff.mpr (runs hk))
    · exact if_pos (spinMark_iff.mpr ⟨runs hk, hm⟩)
    · have force : p.kind ≠ .spin := by rcases hk with hk | hk | hk <;> rw [hk] <;> decide
      have measures : measuringRuns s = true := measuringRuns_iff.mpr ⟨hr, p.kind, kind, hk⟩
      have left := takeReport_leftRunning_measuring measures (spinMark_other (sd := sd) (m := .up) hp force)
      intro active y ended
      have same : endStopped sd s = ended := if_congr EvalSide.active_iff rfl rfl
      rw [left, same]
      exact if_congr EvalSide.active_iff rfl rfl
  · intro runs mark
    refine ⟨fun none => ?_, fun spin stop => ?_, fun spin service hold park => ?_⟩
    · exact takeReport_unrequested ((Bool.not_eq_true _).mp (mt spinMark_iff.mp none))
    · exact takeReport_standstill_unasked ((Bool.not_eq_true _).mp (mt spinMark_iff.mp spin))
        ((Bool.not_eq_true _).mp (mt runningKind_iff.mp stop))
    · refine takeReport_leftRunning_unasked ((Bool.not_eq_true _).mp (mt spinMark_iff.mp spin))
        ((Bool.not_eq_true _).mp fun measures => ?_)
      obtain ⟨hr, k, hk, rfl | rfl | rfl⟩ := measuringRuns_iff.mp measures
      · exact service ⟨hr, hk⟩
      · exact hold ⟨hr, hk⟩
      · exact park ⟨hr, hk⟩
  · intro stopped
    refine ⟨rfl, fun stays => ?_, exitReady_left⟩
    rcases stays with h | h | h
    · exact exitReady_stays (.inl h)
    · exact exitReady_stays (.inr h)
    · exact exitReady_waits h

end Sys2Proof
end

section
/-! The lane millisecond (R97, R110, R172, R173). -/

namespace Sys2Proof.Machine

theorem holds_iff {x : LaneState} : holds x = true ↔ x = .pausing ∨ x = .paused ∨ x = .halted := by
  cases x <;> simp [holds]

/-- The millisecond of an open vehicle goes to live time unless the lane holds the vehicle up, and then to hold time
(R173). -/
theorem advanceClock_eq {s : State} {held : Prop} [Decidable held] (h : holds s.lane.state = true ↔ held) :
    advanceClock s = { s.clock with
      laneTime := s.clock.laneTime + 1, msDue := false,
      live := if s.vehicle.isSome = true ∧ ¬ held then s.clock.live + 1 else s.clock.live,
      hold := if s.vehicle.isSome = true ∧ held then s.clock.hold + 1 else s.clock.hold } := by
  simp only [advanceClock, Bool.and_eq_true, Bool.not_eq_true', ← h, Bool.not_eq_true]

/-- Only the running time is replaced, and it moves for a RUNNING step with a timeout (R97). -/
theorem advanceElapsed_eq {s : State} {timed : Prop} [Decidable timed]
    (h : (s.engine.phase = .running ∧ ∃ p, currentStep s = some p ∧ p.timeout ≠ 0) ↔ timed) :
    advanceElapsed s =
      { s.engine with elapsed := if timed then s.engine.elapsed + 1 else s.engine.elapsed } := by
  have runs : (s.engine.phase == .running && (currentStep s).any fun p => p.timeout != 0) = true ↔ timed := by
    rw [← h, Bool.and_eq_true, beq_iff_eq, Option.any_eq_true]
    simp only [bne_iff_ne]
  unfold advanceElapsed
  by_cases ht : timed
  · rw [if_pos ht]
    exact if_pos (runs.mpr ht)
  · rw [if_neg ht]
    exact if_neg (mt runs.mp ht)

theorem markTest_eq (r : RollerSide) : markTest r = { r with testDue := decide (r.state = .held) } := rfl

end Sys2Proof.Machine

namespace Sys2Proof
open Machine

/-- Settles O56: the clock, the running time and the tests, each by its equation. -/
theorem laneMillisecondCounts : Obligations.LaneMillisecondCounts := by
  unfold Obligations.LaneMillisecondCounts
  intro s
  have run : exec .laneMillisecond s = .next (millisecond s) := rfl
  refine ⟨fun rests => ?_, fun due => ?_⟩
  · rw [run, millisecond, if_neg (by rw [rests]; decide)]
  · intro held
    rw [run, millisecond, if_pos due, advanceClock_eq holds_iff, advanceElapsed_eq Iff.rfl, markTest_eq, markTest_eq]
    rfl

end Sys2Proof
end

section
/-! A side at a tick close of A (R114 to R118, R122 to R124). -/

namespace Sys2Proof.Machine

/-! ### Spin-up and standstill (R114, R115) -/

section
variable {sd : Side} {s : State}

theorem spunUp_iff : spunUp sd s = true ↔ ∃ d f, value s (driveSpeed sd) = some d ∧
    value s (followSpeed sd) = some f ∧ (settings s).minDriveSpeed ≤ d ∧
    (d * (settings s).spinUpFraction).tdiv 1000 ≤ f := by
  unfold spunUp
  cases value s (driveSpeed sd) with
  | none => simp
  | some d =>
    cases value s (followSpeed sd) with
    | none => simp
    | some f => simp

theorem standsStill_iff : standsStill sd s = true ↔
    (mapped s (driveSpeed sd) = none ∨ ∃ d, value s (driveSpeed sd) = some d ∧ d < (settings s).standstillSpeed) ∧
      (s.roller sd).contactor = false ∧ (s.roller sd).outstanding = false := by
  unfold standsStill
  cases mapped s (driveSpeed sd) with
  | none => simp
  | some m =>
    cases value s (driveSpeed sd) with
    | none => simp
    | some d => simp [and_assoc]

theorem sideClose_spunUp {sent : Word32} (hs : (s.roller sd).state = .spinningUp)
    (ht : (s.roller sd).sendTime = some sent)
    (within : (s.clock.laneTime - sent).toNat < (settings s).spinUpWindow) (fast : spunUp sd s = true) :
    sideClose sd s = (s.setRoller sd { s.roller sd with state := .running, sendTime := none, slip := 0 },
      [.spinUpOk sd], SideTrace.none) := by
  unfold sideClose
  dsimp only
  rw [hs, ht]
  exact if_pos ⟨within, fast⟩

theorem sideClose_spinsOn (hs : (s.roller sd).state = .spinningUp)
    (h : ∀ sent, (s.roller sd).sendTime = some sent →
      (s.clock.laneTime - sent).toNat < (settings s).spinUpWindow → spunUp sd s ≠ true) :
    sideClose sd s = (s, [], SideTrace.none) := by
  unfold sideClose
  dsimp only
  rw [hs]
  cases ht : (s.roller sd).sendTime with
  | none => rfl
  | some sent => exact if_neg fun ⟨within, fast⟩ => h sent ht within fast

theorem sideClose_coasting (hs : (s.roller sd).state = .coasting) : sideClose sd s =
    if standsStill sd s = true then
      (s.setRoller sd { s.roller sd with state := .stopped }, [.standstill sd], SideTrace.none)
    else (s, [], SideTrace.none) := by
  unfold sideClose
  dsimp only
  rw [hs]

theorem sideClose_resting (hs : (s.roller sd).state = .stopped ∨ (s.roller sd).state = .held) :
    sideClose sd s = (s, [], SideTrace.none) := by
  unfold sideClose
  dsimp only
  rcases hs with h | h
  · rw [h]
  · rw [h]

theorem sideClose_running (hs : (s.roller sd).state = .running) :
    sideClose sd s = ((runningClose sd s).1, [], (runningClose sd s).2) := by
  unfold sideClose
  dsimp only
  rw [hs]

/-! ### Slip and watch (R116, R117) -/

theorem clampTo_eq {lo hi : Int} (h : lo ≤ hi) (x : Int) : clampTo lo hi x = max lo (min hi x) := by
  unfold clampTo
  split
  · omega
  · split
    · omega
    · omega

theorem newSlip_of_speeds {d f : Int} (hd : value s (driveSpeed sd) = some d)
    (hf : value s (followSpeed sd) = some f) : newSlip sd s =
      if (settings s).minDriveSpeed ≤ d then max 0 (min 1000 (((d - f) * 1000).tdiv d)) else (s.roller sd).slip := by
  unfold newSlip
  rw [hd, hf, ← clampTo_eq (by decide)]

theorem newSlip_without_drive (h : value s (driveSpeed sd) = none) : newSlip sd s = (s.roller sd).slip := by
  unfold newSlip
  rw [h]

theorem newSlip_without_follow (h : value s (followSpeed sd) = none) : newSlip sd s = (s.roller sd).slip := by
  unfold newSlip
  rw [h]
  cases value s (driveSpeed sd) with
  | none => rfl
  | some d => rfl

/-- The watch after a close, by what engages it (R117). -/
theorem newWatch_eq {w : Watch} {engaged : Prop} [Decidable engaged] (slip : Int)
    (h : (w.engaged = true ∨ ∃ b, value s (brakeForce sd) = some b ∧ (limits s).engageForce ≤ b) ↔ engaged) :
    newWatch sd s slip w = { engaged := decide engaged, count :=
      if engaged ∧ (limits s).lockSlip ≤ slip then w.count + 1 else 0 } := by
  have engages : (w.engaged || (value s (brakeForce sd)).any fun f => decide ((limits s).engageForce ≤ f)) =
      decide engaged := by
    rw [Bool.eq_iff_iff, Bool.or_eq_true, Option.any_eq_true, decide_eq_true_iff, ← h]
    simp only [decide_eq_true_iff]
  unfold newWatch
  rw [engages]
  simp only [Bool.and_eq_true, decide_eq_true_iff]

theorem stopRunning_eq (sd : Side) (s : State) : stopRunning sd s =
    (offerStop sd s).1.setRoller sd { (offerStop sd s).1.roller sd with
      state := .coasting, sendTime := none, watch := none, window := 0 } := rfl

/-! ### The wheel revolution accumulator (R122 to R124) -/

theorem incrementK_eq {cf nf : Nat} (hc : (settings s).followerCircumference = some cf)
    (hn : (settings s).pulsesPerRev = some nf) :
    incrementK s = (2 * (2 ^ 32 * cf) + (limits s).wheelCircumference * nf) /
      (2 * ((limits s).wheelCircumference * nf)) := by
  unfold incrementK
  rw [hc, hn, ← Nat.mul_assoc 2 (2 ^ 32) cf]
  rfl

theorem pulseSum_eq {n : Nat} (h : value s (followPulses sd) = some (n : Int)) :
    pulseSum sd s = (s.roller sd).acc.toNat + n * (s.roller sd).increment := by
  rw [pulseSum, h, Option.getD_some, Int.toNat_natCast]

/-- The accumulator takes the sum modulo 2³², and a sum of 2³² or more ends the window (R123, R124). -/
theorem accumulate_eq (sd : Side) (s : State) : accumulate sd s =
    (s.setRoller sd { s.roller sd with
      acc := BitVec.ofNat 32 (pulseSum sd s % 2 ^ 32)
      window := if 2 ^ 32 ≤ pulseSum sd s then min ((s.roller sd).window + 1) 255 else (s.roller sd).window },
    { lock := false, window := some ((s.roller sd).window, decide (2 ^ 32 ≤ pulseSum sd s))
      carry := decide (2 ^ 32 ≤ pulseSum sd s) }) := by
  have wraps : BitVec.ofNat 32 (pulseSum sd s % 2 ^ 32) = BitVec.ofNat 32 (pulseSum sd s) :=
    BitVec.eq_of_toNat_eq (by simp)
  unfold accumulate
  simp only [decide_eq_true_iff, wraps]

/-- A close that counts without a lock replaces the side's slip, watch, accumulator and window (R116, R117, R123). -/
theorem runningClose_counts {w : Watch} (hw : (s.roller sd).watch = some w)
    (hc : (newWatch sd s (newSlip sd s) w).count < (limits s).lockConfirm) :
    ∃ acc window, (runningClose sd s).1 = s.setRoller sd { s.roller sd with
      slip := newSlip sd s, watch := some (newWatch sd s (newSlip sd s) w), acc, window } := by
  rw [runningClose_watched hw hc]
  split
  · rw [accumulate_eq, counted, setRoller_setRoller, roller_setRoller]
    exact ⟨_, _, rfl⟩
  · exact ⟨(s.roller sd).acc, (s.roller sd).window, rfl⟩

end

end Sys2Proof.Machine

namespace Sys2Proof
open Machine

/-- Settles O44: the side by its state, a RUNNING one by its watch and the count, and the accumulator. -/
theorem runningSideAtClose : Obligations.RunningSideAtClose := by
  unfold Obligations.RunningSideAtClose
  refine ⟨fun sd s => ?_, fun sd s hr => ?_, fun sd s => ⟨fun cf nf hc hn => incrementK_eq hc hn, fun n hn => ?_⟩⟩
  · intro x drive follow up still
    refine ⟨fun hs => ?_, fun hs slow => (sideClose_coasting hs).trans (if_pos (standsStill_iff.mpr slow)), ?_⟩
    · rintro ⟨sent, d, f, ht, within, fast⟩
      exact sideClose_spunUp hs ht within (spunUp_iff.mpr ⟨d, f, fast⟩)
    · rintro (⟨hs, no⟩ | ⟨hs, no⟩ | rest)
      · refine sideClose_spinsOn hs fun sent ht within fast => no ?_
        obtain ⟨d, f, speeds⟩ := spunUp_iff.mp fast
        exact ⟨sent, d, f, ht, within, speeds⟩
      · exact (sideClose_coasting hs).trans (if_neg (mt standsStill_iff.mp no))
      · exact sideClose_resting rest
  · intro slip u
    have same : newSlip sd s = slip := by
      cases hd : value s (driveSpeed sd) with
      | none => simp only [slip, hd, newSlip_without_drive hd]
      | some d =>
        cases hf : value s (followSpeed sd) with
        | none => simp only [slip, hd, hf, newSlip_without_follow hf]
        | some f => simp only [slip, hd, hf, newSlip_of_speeds hd hf]
    have slips : slipped sd s = u := by rw [slipped, same]
    rw [sideClose_running hr]
    refine ⟨fun unwatched => ?_, fun w hw => ?_⟩
    · rw [runningClose_unwatched unwatched, slips]
      exact ⟨rfl, rfl⟩
    · intro engaged count
      have watch : newWatch sd s (newSlip sd s) w = { engaged := decide engaged, count } := by
        rw [same]
        exact newWatch_eq slip Iff.rfl
      refine ⟨fun locks => ?_, fun free => ?_⟩
      · rw [runningClose_locks hw (by rw [watch]; exact locks), slips]
        exact ⟨stopRunning_eq sd u, rfl⟩
      · have below : (newWatch sd s (newSlip sd s) w).count < (limits s).lockConfirm := by rw [watch]; exact free
        obtain ⟨acc, window, closed⟩ := runningClose_counts hw below
        rw [closed, roller_setRoller, roller_setRoller_other, setRoller_head]
        refine ⟨congrArg some watch, hr, ?_, rfl, rfl⟩
        rw [runningClose_trace, runningTrace, hw, Option.elim_some, if_neg (Nat.not_le.mpr below)]
        split
        · rfl
        · rfl
  · intro sum
    have total : pulseSum sd s = sum := pulseSum_eq hn
    rw [accumulate_eq, total]
    exact ⟨rfl, rfl, rfl⟩

end Sys2Proof
end

section
/-! The promise of the emergency stop (R108, R120) and the start rules (R107). -/

namespace Sys2Proof.Machine

/-- The sends that a rule counts: those not aged within its window (R107). -/
theorem countWithin_eq (l : List HistoryEntry) (now : Word32) (w : Nat) : countWithin l now w =
    (l.filter fun e => e.aged = false ∧ (now - e.time).toNat < w).length := by
  refine congrArg List.length (List.filter_congr fun e _ => ?_)
  rw [Bool.decide_and, elapsedSince]
  cases e.aged <;> rfl

/-- A START is permitted when every rule that has a window counts fewer sends than its number (R107). -/
theorem permitted_iff {s : State} {sd : Side} : permitted s sd = true ↔
    ∀ k, 1 ≤ k → k ≤ 4 → ruleWindow s k ≠ 0 → countWithin (s.roller sd).history s.now (ruleWindow s k) < k := by
  have numbers : ∀ k, k ∈ [1, 2, 3, 4] ↔ 1 ≤ k ∧ k ≤ 4 := fun k => by
    simp only [List.mem_cons, List.not_mem_nil, or_false]
    omega
  rw [permitted, List.all_eq_true]
  refine forall_congr' fun k => ?_
  rw [numbers, and_imp, Bool.or_eq_true, beq_iff_eq, decide_eq_true_iff, or_iff_not_imp_left]

/-- Settles O38: the rules by their numbers, each with the sends it counts. -/
theorem startPermittedByTheRules : Obligations.StartPermittedByTheRules := by
  unfold Obligations.StartPermittedByTheRules
  intro s sd
  simp only [permitted_iff, countWithin_eq, State.now]

/-- Settles O58: it is among what every step keeps. -/
theorem emergencyStopKept : Obligations.EmergencyStopKept := by
  unfold Obligations.EmergencyStopKept
  intro s t safe h
  exact (step_kept h).safe safe

end Sys2Proof.Machine
end

section
/-! The loads at a close of B, and a side of the Evaluator at a close of A (R117, R126, R128 to R138). -/

namespace Sys2Proof.Machine

/-! ### The loads (R126) -/

theorem slide_eq (n : Nat) (w : List (Int × Bool)) (x : Int × Bool) :
    slide n w x = (w ++ [x]).drop (w.length + 1 - n) := by
  rw [slide, List.length_append, List.length_singleton]

theorem largest_le_iff {m : Int} {l : List Int} (h : l ≠ []) : largest l ≤ m ↔ ∀ a ∈ l, a ≤ m := by
  fun_induction largest l with
  | case1 => exact absurd rfl h
  | case2 x => rw [List.forall_mem_singleton]
  | case3 x y rest ih => rw [List.forall_mem_cons, max_le_iff, ih (List.cons_ne_nil y rest)]

theorem le_least_iff {m : Int} {l : List Int} (h : l ≠ []) : m ≤ least l ↔ ∀ b ∈ l, m ≤ b := by
  fun_induction least l with
  | case1 => exact absurd rfl h
  | case2 x => rw [List.forall_mem_singleton]
  | case3 x y rest ih => rw [List.forall_mem_cons, le_min_iff, ih (List.cons_ne_nil y rest)]

/-- The spread of a list is within a bound when no two of its values lie farther apart. -/
theorem spread_le_iff {m : Int} {l : List Int} (h : l ≠ []) :
    largest l - least l ≤ m ↔ ∀ a ∈ l, ∀ b ∈ l, a - b ≤ m := by
  rw [sub_le_comm, le_least_iff h]
  simp only [sub_le_iff_le_add, largest_le_iff h, add_comm m]
  exact forall₂_comm

theorem steady_iff {s : State} (h : 1 ≤ (settings s).settleCount) (w : List (Int × Bool)) : steady s w = true ↔
    w.length = (settings s).settleCount ∧ ∀ a ∈ w, ∀ b ∈ w, a.1 - b.1 ≤ (settings s).stabilitySpread := by
  rw [steady, Bool.and_eq_true, beq_iff_eq, decide_eq_true_iff]
  refine and_congr_right fun full => ?_
  have some : w.map (·.1) ≠ [] := List.map_eq_nil_iff.not.mpr (List.ne_nil_of_length_pos (full ▸ h))
  rw [spread_le_iff some, List.forall_mem_map]
  simp only [List.forall_mem_map]

theorem settleClose_absent {s : State} (h : value s .wheelLoadL = none ∨ value s .wheelLoadR = none) :
    settleClose s = ({ s with eval := { s.eval with loads := { left := [], right := [] } } }, false) := by
  unfold settleClose
  split
  next l r hl hr =>
    rcases h with h | h
    · exact nomatch hl.symm.trans h
    · exact nomatch hr.symm.trans h
  · rfl

theorem settleClose_present {s : State} {l r : Int} (hl : value s .wheelLoadL = some l)
    (hr : value s .wheelLoadR = some r) :
    let wl := slide (settings s).settleCount s.eval.loads.left (l, deliveredStale s .wheelLoadL)
    let wr := slide (settings s).settleCount s.eval.loads.right (r, deliveredStale s .wheelLoadR)
    settleClose s = ({ s with eval := { s.eval with loads := { left := wl, right := wr } } },
      steady s wl && steady s wr) := by
  unfold settleClose
  rw [hl, hr]

/-! ### A side of a force measurement (R128 to R132) -/

section
variable {lim : ClassLimits} {service : Bool} {f pedal : Option Int} {x : EvalSide}

/-- A side is engaged by a force at least the engage force, or was before (R129). -/
theorem engage_engaged (ha : x.phase = .waitingEngage ∨ x.phase = .engaged)
    (h : x.phase = .engaged ∨ ∃ v, f = some v ∧ lim.engageForce ≤ v) :
    engage lim f x = { x with phase := .engaged } := by
  unfold engage
  split
  · rfl
  next waits =>
    have engaged : x.phase = .engaged := by
      by_contra no
      refine waits ?_
      obtain ⟨v, rfl, hv⟩ := h.resolve_left no
      rw [ha.resolve_right no, Option.any_some, decide_eq_true hv]
      rfl
    rw [← engaged]

theorem engage_waits (h : ¬ ∃ v, f = some v ∧ lim.engageForce ≤ v) : engage lim f x = x := by
  refine if_neg fun engages => h ?_
  obtain ⟨v, hv, high⟩ := (Option.any_eq_true _ _).mp (Bool.and_eq_true_iff.mp engages).2
  exact ⟨v, hv, of_decide_eq_true high⟩

/-- The peak takes a force higher than every one before it, and the pedal with it (R132). -/
theorem follow_eq {higher : Prop} [Decidable higher]
    (h : higher ↔ ∃ v, f = some v ∧ ∀ p, x.peak = some p → p < v) : follow service f pedal x = { x with
      peak := if higher then f else x.peak
      pedal := if higher then (if service = true then pedal else none) else x.pedal } := by
  cases f with
  | none =>
    have no : ¬ higher := fun k => nomatch (h.mp k).choose_spec.1
    rw [if_neg no, if_neg no]
    rfl
  | some v =>
    have all : x.peak.all (fun p => decide (p < v)) = true ↔ higher := by
      simp [h, Option.all_eq_true]
    rw [follow]
    by_cases k : higher
    · rw [if_pos (all.mpr k), if_pos k, if_pos k]
    · rw [if_neg (mt all.mp k), if_neg k, if_neg k]

/-- The closes below the release force that count for the release, up to this one (R130). -/
def releaseCount (lim : ClassLimits) (f : Option Int) (x : EvalSide) : Nat :=
  if f.any (fun v => decide (v < lim.releaseForce)) then x.release + 1 else 0

theorem releaseCount_eq {below : Prop} [Decidable below] (h : below ↔ ∃ v, f = some v ∧ v < lim.releaseForce) :
    releaseCount lim f x = if below then x.release + 1 else 0 := by
  refine if_congr ?_ rfl rfl
  simp only [h, Option.any_eq_true, decide_eq_true_iff]

/-- A side not engaged yet waits on (R129). -/
theorem forceSide_waits {lock : Bool}
    (h : ¬ (x.phase = .engaged ∨ ∃ v, f = some v ∧ lim.engageForce ≤ v)) :
    forceSide lim service lock f pedal x = x := by
  obtain ⟨waits, low⟩ := not_or.mp h
  rw [forceSide, engage_waits low]
  exact if_neg (mt beq_iff_eq.mp waits)

/-- An engaged side at a close: the peak followed, and then the lock before the release (R130 to R132). -/
theorem forceSide_engaged {lock : Bool} (ha : x.phase = .waitingEngage ∨ x.phase = .engaged)
    (h : x.phase = .engaged ∨ ∃ v, f = some v ∧ lim.engageForce ≤ v) : forceSide lim service lock f pedal x =
      if lock = true then (follow service f pedal { x with phase := .engaged }).endAs .locked
      else release lim f (follow service f pedal { x with phase := .engaged }) := by
  rw [forceSide, engage_engaged ha h]
  rfl

theorem release_ends (h : lim.releaseConfirm ≤ releaseCount lim f x) :
    release lim f x = { x with release := releaseCount lim f x, phase := .ended, ending := .released } := if_pos h

theorem release_counts (h : releaseCount lim f x < lim.releaseConfirm) :
    release lim f x = { x with release := releaseCount lim f x } := if_neg (Nat.not_le.mpr h)

/-! ### A side of a HOLD step (R137, R138) -/

variable {tr : SideTrace} {k : Nat}

theorem holdSide_locked (h : tr.lock = true) : holdSide lim tr f x = { x with phase := .ended, ending := .locked } :=
  if_pos h

/-- A close that ends no window leaves the extremes of the open one (R137). -/
theorem holdSide_open (hl : tr.lock = false) (hw : ∀ k, tr.window ≠ some (k, true)) :
    holdSide lim tr f x = { x with extremes := widen f x.extremes } := by
  rw [holdSide, if_neg (by rw [hl]; decide)]
  split
  next k h => exact absurd h (hw k)
  · rfl

/-- The close that ends a window judges it, and the last of those required ends the side (R138). -/
theorem holdSide_window (hl : tr.lock = false) (hw : tr.window = some (k, true)) :
    let z := { judgeWindow lim k { x with extremes := widen f x.extremes } with extremes := none }
    holdSide lim tr f x = if lim.ovalityWindows ≤ z.windows then z.endAs .windows else z := by
  rw [holdSide, if_neg (by rw [hl]; decide), hw]

theorem judgeWindow_skipped
    (h : k ≤ 1 ∨ x.extremes = none ∨ ∃ hi lo, x.extremes = some (hi, lo) ∧ hi < lim.ovalityFloor) :
    judgeWindow lim k x = x := by
  unfold judgeWindow
  split
  · rfl
  next hi lo seen =>
    refine if_pos (h.imp_right fun later => ?_)
    obtain none | ⟨hi', lo', seen', low⟩ := later
    · exact nomatch seen.symm.trans none
    · cases seen.symm.trans seen'
      exact low

theorem maxOpt_some (a : Option Int) (y : Int) : maxOpt a (some y) = some (a.elim y (max · y)) := by
  cases a <;> rfl

theorem judgeWindow_judged {hi lo : Int} (hk : 1 < k) (hx : x.extremes = some (hi, lo))
    (hf : lim.ovalityFloor ≤ hi) : judgeWindow lim k x = { x with
      windows := x.windows + 1
      ovality := maxOpt x.ovality (some (max 0 (min 1000 (((hi - lo) * 1000).tdiv hi)))) } := by
  rw [judgeWindow, hx, ← clampTo_eq (by decide)]
  exact if_neg (by omega)

/-- A window that counts for nothing leaves only its extremes cleared (R138). -/
theorem holdSide_skipped (hl : tr.lock = false) (hw : tr.window = some (k, true)) (hn : x.windows < lim.ovalityWindows)
    (h : k ≤ 1 ∨ widen f x.extremes = none ∨
      ∃ hi lo, widen f x.extremes = some (hi, lo) ∧ hi < lim.ovalityFloor) :
    holdSide lim tr f x = { x with extremes := none } := by
  rw [holdSide_window hl hw, judgeWindow_skipped h]
  exact if_neg (Nat.not_le.mpr hn)

/-- A window that counts gives its ovality, and the last of those required ends the side (R138). -/
theorem holdSide_judged {hi lo : Int} (hl : tr.lock = false) (hw : tr.window = some (k, true))
    (hn : x.windows < lim.ovalityWindows) (hk : 1 < k) (hx : widen f x.extremes = some (hi, lo))
    (hf : lim.ovalityFloor ≤ hi) :
    let z := { x with
      extremes := none
      windows := x.windows + 1
      ovality := maxOpt x.ovality (some (max 0 (min 1000 (((hi - lo) * 1000).tdiv hi)))) }
    holdSide lim tr f x = if x.windows + 1 = lim.ovalityWindows then z.endAs .windows else z := by
  rw [holdSide_window hl hw, judgeWindow_judged hk hx hf]
  have last : lim.ovalityWindows ≤ x.windows + 1 ↔ x.windows + 1 = lim.ovalityWindows := by omega
  exact if_congr last rfl rfl

end

/-! ### A side at a close of A -/

section
variable {sd : Side} {tr : SideTrace} {s : State}

/-- A side whose measurement is idle or has ended is left as it is. -/
theorem evalSide_inactive (h : (s.eval.sides.get sd).phase = .idle ∨ (s.eval.sides.get sd).phase = .ended) :
    evalSide sd tr s = s.eval.sides.get sd := by
  refine if_pos ?_
  rw [EvalSide.active]
  rcases h with h | h
  · rw [h]; rfl
  · rw [h]; rfl

/-- The side with the stale mark of the values that it uses (R134, R137). -/
def staleMarked (sd : Side) (s : State) : EvalSide :=
  { s.eval.sides.get sd with stale := (s.eval.sides.get sd).stale || sideStale s sd }

theorem evalSide_force (ha : s.eval.activity = .force)
    (h : (s.eval.sides.get sd).phase = .waitingEngage ∨ (s.eval.sides.get sd).phase = .engaged) :
    evalSide sd tr s = forceSide (limits s) (runningKind s .service) tr.lock (value s (brakeForce sd))
      (value s .pedalForce) (staleMarked sd s) := by
  unfold evalSide
  dsimp only
  rw [EvalSide.active_iff.mpr h, ha]
  rfl

theorem evalSide_hold (ha : s.eval.activity = .hold)
    (h : (s.eval.sides.get sd).phase = .waitingEngage ∨ (s.eval.sides.get sd).phase = .engaged) :
    evalSide sd tr s = holdSide (limits s) tr (value s (brakeForce sd)) (staleMarked sd s) := by
  unfold evalSide
  dsimp only
  rw [EvalSide.active_iff.mpr h, ha]
  rfl

end

/-! ### Both sides at a close of A (R117, R136) -/

theorem reportEnded_eval (sd : Side) (s : State) : (reportEnded sd s).eval = s.eval := by
  obtain ⟨r, e⟩ := reportEnded_only sd s
  rw [e]

theorem reportEnded_roller (sd : Side) (s : State) : (reportEnded sd s).roller sd =
    if (s.eval.sides.get sd).phase = .ended then (s.roller sd).watchOff else s.roller sd := by
  simp only [reportEnded, beq_iff_eq, apply_ite (State.roller · sd), roller_setRoller]

theorem reportEnded_roller_other (sd : Side) (s : State) :
    (reportEnded sd s).roller (otherSide sd) = s.roller (otherSide sd) := by
  unfold reportEnded
  split
  · exact roller_setRoller_other s sd _
  · rfl

/-- The watch of every side that has ended goes off (R117). -/
theorem reportEnded_rollers (sd : Side) (s : State) : (reportEnded .right (reportEnded .left s)).roller sd =
    if (s.eval.sides.get sd).phase = .ended then (s.roller sd).watchOff else s.roller sd := by
  cases sd with
  | left => exact (reportEnded_roller_other .right _).trans (reportEnded_roller .left s)
  | right =>
    rw [reportEnded_roller, reportEnded_eval]
    exact if_congr Iff.rfl (congrArg _ (reportEnded_roller_other .left s)) (reportEnded_roller_other .left s)

theorem pairedSide_iff {a b : EvalSide} : pairedSide a b = true ↔
    (a.phase = .waitingEngage ∨ a.phase = .engaged) ∧ (b.phase = .engaged ∨ b.phase = .ended) := by
  rw [pairedSide, Bool.and_eq_true, EvalSide.active_iff, Bool.or_eq_true, beq_iff_eq, beq_iff_eq]

theorem candidate_counts {lim : ClassLimits} {f g : Int} (h : lim.imbalanceFloor ≤ max f g) :
    candidate lim f g = some (max 0 (min 1000 (((max f g - min f g) * 1000).tdiv (max f g)))) := by
  rw [candidate, ← clampTo_eq (by decide)]
  exact if_pos h

theorem candidate_low {lim : ClassLimits} {f g : Int} (h : max f g < lim.imbalanceFloor) :
    candidate lim f g = none := if_neg (not_le.mpr h)

section
variable (tr : Pair SideTrace) (s : State)

/-- The imbalance after a close (R136). -/
def imbalanceClose : Option Int :=
  if runningKind s .service && pairedSide s.eval.sides.left (evalSide .left tr.left s) &&
      pairedSide s.eval.sides.right (evalSide .right tr.right s) then
    match value s .brakeForceL, value s .brakeForceR with
    | some f, some g => maxOpt s.eval.imbalance (candidate (limits s) f g)
    | _, _ => s.eval.imbalance
  else s.eval.imbalance

theorem measureClose_eq : measureClose tr s = reportEnded .right (reportEnded .left { s with
    eval := { s.eval with
      sides := { left := evalSide .left tr.left s, right := evalSide .right tr.right s }
      imbalance := imbalanceClose tr s } }) := rfl

theorem measureClose_eval : (measureClose tr s).eval = { s.eval with
    sides := { left := evalSide .left tr.left s, right := evalSide .right tr.right s }
    imbalance := imbalanceClose tr s } := by
  rw [measureClose_eq, reportEnded_eval, reportEnded_eval]

theorem measureClose_side (sd : Side) : (measureClose tr s).eval.sides.get sd = evalSide sd (tr.get sd) s := by
  rw [measureClose_eval]
  cases sd <;> rfl

theorem measureClose_roller (sd : Side) : (measureClose tr s).roller sd =
    if (evalSide sd (tr.get sd) s).phase = .ended then (s.roller sd).watchOff else s.roller sd := by
  rw [measureClose_eq, reportEnded_rollers]
  cases sd <;> rfl

variable {tr s}

/-- Both forces of a paired close of SERVICE give a candidate, and the larger value is kept (R136). -/
theorem imbalanceClose_paired {f g : Int} (hs : runningKind s .service = true)
    (hl : pairedSide s.eval.sides.left (evalSide .left tr.left s) = true)
    (hr : pairedSide s.eval.sides.right (evalSide .right tr.right s) = true)
    (hf : value s .brakeForceL = some f) (hg : value s .brakeForceR = some g) :
    imbalanceClose tr s = maxOpt s.eval.imbalance (candidate (limits s) f g) := by
  rw [imbalanceClose, hs, hl, hr, hf, hg]
  rfl

/-- The imbalance changes only by a candidate of a paired close of SERVICE (R136). -/
theorem imbalanceClose_kept (h : ∀ f g, runningKind s .service = true →
    pairedSide s.eval.sides.left (evalSide .left tr.left s) = true →
    pairedSide s.eval.sides.right (evalSide .right tr.right s) = true →
    value s .brakeForceL = some f → value s .brakeForceR = some g → candidate (limits s) f g = none) :
    imbalanceClose tr s = s.eval.imbalance := by
  unfold imbalanceClose
  split
  next paired =>
    obtain ⟨⟨hs, hl⟩, hr⟩ := (Bool.and_eq_true_iff.mp paired).imp_left Bool.and_eq_true_iff.mp
    split
    next f g hf hg =>
      rw [h f g hs hl hr hf hg]
      cases s.eval.imbalance <;> rfl
    · rfl
  · rfl

end

end Sys2Proof.Machine
end

section
/-! What a step that ends writes of its measurement (R125, R127, R133, R135, R138, R160). -/

namespace Sys2Proof.Machine

/-! ### Before the results (R133) -/

theorem stopHeld_eval (sd : Side) (s : State) : (stopHeld sd s).eval = s.eval := by
  obtain ⟨x, u, v, y, n, r, e⟩ := stopHeld_stopping sd s
  rw [e]
  rfl

theorem laneStopBoth_eval (s : State) : (laneStopBoth s).1.eval = s.eval := by
  obtain ⟨x, u, v, y, n, l, r, e, -⟩ := laneStopBoth_only s
  rw [e]
  rfl

/-- What an outcome does first leaves the measurement as it is. -/
theorem beforeResults_eval (k : StepKind) (o : StepOutcome) (s : State) : (beforeResults k o s).eval = s.eval := by
  cases o with
  | ok => rfl
  | rep => rfl
  | skipped =>
    unfold beforeResults
    dsimp only
    split
    · rw [stopHeld_eval, stopHeld_eval]
    · rfl
  | aborted => exact laneStopBoth_eval _

/-- A side as a step's end finds it, with what is not ended closed unless the step was completed (R133). -/
def closedSide (x : StepEnd) (y : EvalSide) : EvalSide :=
  if x.ending ≠ .completed ∧ (y.phase = .waitingEngage ∨ y.phase = .engaged) then y.endAs .timedOut else y

theorem closeSides_eval (s : State) : (closeSides s).eval = { s.eval with sides :=
    { left := if s.eval.sides.left.active = true then s.eval.sides.left.endAs .timedOut else s.eval.sides.left
      right := if s.eval.sides.right.active = true then s.eval.sides.right.endAs .timedOut
        else s.eval.sides.right } } := rfl

theorem beforeEnd_eval (x : StepEnd) (k : StepKind) (s : State) : (beforeEnd x k s).eval = { s.eval with sides :=
    { left := closedSide x s.eval.sides.left, right := closedSide x s.eval.sides.right } } := by
  unfold beforeEnd closedSide
  by_cases done : x.ending = .completed
  · rw [if_pos (beq_iff_eq.mpr done), beforeResults_eval, if_neg (fun h => h.1 done), if_neg (fun h => h.1 done)]
  · rw [if_neg (mt beq_iff_eq.mp done), closeSides_eval, beforeResults_eval]
    simp only [EvalSide.active_iff, ne_eq, done, not_false_eq_true, true_and]

theorem VehicleRecord.after_axles (v : VehicleRecord) (o : StepOutcome) : (v.after o).axles = v.axles := by
  cases o <;> rfl

theorem VehicleRecord.after_cls (v : VehicleRecord) (o : StepOutcome) : (v.after o).cls = v.cls := by
  cases o <;> rfl

theorem limits_opened {v : VehicleRecord} {s : State} (h : s.vehicle = some v) : limits s = limitsOf s v.cls := by
  rw [limits, h]

section
variable {x : StepEnd} {k : StepKind} {v : VehicleRecord} {e : AxleEntry} {s : State}

theorem beforeEnd_vehicle (h : s.vehicle = some v) : (beforeEnd x k s).vehicle = some (v.after x.outcome) := by
  rw [(beforeEnd_taken x k s).only, h]
  rfl

theorem beforeEnd_limits (h : s.vehicle = some v) : limits (beforeEnd x k s) = limits s := by
  have working : (beforeEnd x k s).working = s.working := by rw [(beforeEnd_taken x k s).only]
  rw [limits_opened (beforeEnd_vehicle h), limits_opened h, VehicleRecord.after_cls, limitsOf, limitsOf, working]

theorem beforeEnd_engine : (beforeEnd x k s).engine = s.engine := by rw [(beforeEnd_taken x k s).only]

theorem beforeEnd_kind : currentKind (beforeEnd x k s) = currentKind s := by rw [(beforeEnd_taken x k s).only]; rfl

/-! ### The results (R127, R135, R138) -/

/-- A result of the sides that are MEASURING, over the one held (R135, R138, R160). -/
def sideResults {α : Type} (s : State) (f : EvalSide → α) (sides : Pair EvalSide) (old : Pair (Option α)) :
    Pair (Option α) :=
  { left := if s.engine.marks.left = .measuring then some (f sides.left) else old.left
    right := if s.engine.marks.right = .measuring then some (f sides.right) else old.right }

theorem overlay_measured {α : Type} (s : State) (f : EvalSide → α) (old : Pair (Option α)) :
    overlay (measured s f) old = sideResults s f s.eval.sides old := by
  simp only [overlay, measured, sideResults, beq_iff_eq, apply_ite (Option.or · old.left),
    apply_ite (Option.or · old.right), Option.some_or, Option.none_or]

/-- With no side MEASURING what is held stays. -/
theorem sideResults_none {α : Type} {f : EvalSide → α} {sides : Pair EvalSide} {old : Pair (Option α)}
    (h : ¬ (s.engine.marks.left = .measuring ∨ s.engine.marks.right = .measuring)) :
    sideResults s f sides old = old := by
  rw [sideResults, if_neg (mt .inl h), if_neg (mt .inr h)]

/-- The results at a step's end are those of the sides as the end finds them (R133). -/
theorem sideResults_beforeEnd {α : Type} {f : EvalSide → α} {old : Pair (Option α)} :
    sideResults (beforeEnd x k s) f (beforeEnd x k s).eval.sides old =
      sideResults s f { left := closedSide x s.eval.sides.left, right := closedSide x s.eval.sides.right } old := by
  rw [sideResults, beforeEnd_engine, beforeEnd_eval, sideResults]

/-- An axle entry with what the current step writes at its end (R160). -/
def writtenEntry (completed : Bool) (s : State) (e : AxleEntry) : AxleEntry :=
  (results completed s).elim e (writeEntry · e)

theorem writtenEntry_weigh {c : Bool} (hk : currentKind s = some .weigh) : writtenEntry c s e =
    if c = true then
      { e with loads := some { left := meanLoad s.eval.loads.left, right := meanLoad s.eval.loads.right } }
    else e := by
  unfold writtenEntry results
  rw [hk]
  cases c <;> rfl

/-- What a measuring step writes when a side is MEASURING (R135, R138). -/
theorem writtenEntry_measuring {c : Bool} {w : Written}
    (h : results c s = if (s.engine.marks.left == .measuring || s.engine.marks.right == .measuring) = true then some w
      else none) : writtenEntry c s e =
    if s.engine.marks.left = .measuring ∨ s.engine.marks.right = .measuring then writeEntry w e else e := by
  rw [writtenEntry, h]
  simp only [Bool.or_eq_true, beq_iff_eq]
  split
  · rfl
  · rfl

theorem writtenEntry_service {c : Bool} (hk : currentKind s = some .service) : writtenEntry c s e = { e with
    service := sideResults s serviceOf s.eval.sides e.service
    imbalance := if s.engine.marks.left = .measuring ∨ s.engine.marks.right = .measuring then s.eval.imbalance
      else e.imbalance } := by
  rw [writtenEntry_measuring (by rw [results, hk]), writeEntry, overlay_measured]
  split
  · rfl
  next h => rw [sideResults_none h]

theorem writtenEntry_hold {c : Bool} (hk : currentKind s = some .hold) : writtenEntry c s e = { e with
    hold := sideResults s (holdOf (limits s)) s.eval.sides e.hold } := by
  rw [writtenEntry_measuring (by rw [results, hk]), writeEntry, overlay_measured]
  split
  · rfl
  next h => rw [sideResults_none h]

theorem writtenEntry_park {c : Bool} (hk : currentKind s = some .park) : writtenEntry c s e = { e with
    park := sideResults s parkOf s.eval.sides e.park } := by
  rw [writtenEntry_measuring (by rw [results, hk]), writeEntry, overlay_measured]
  split
  · rfl
  next h => rw [sideResults_none h]

/-- The steps that measure nothing write nothing. -/
theorem writtenEntry_other {c : Bool} (hk : currentKind s = some k)
    (h : k = .axleIn ∨ k = .axleOut ∨ k = .spin ∨ k = .stop ∨ k = .finish) : writtenEntry c s e = e := by
  unfold writtenEntry results
  rw [hk]
  rcases h with rfl | rfl | rfl | rfl | rfl <;> rfl

/-! ### The record (R89, R160) -/

theorem modify_eq_set {α : Type} {l : List α} {i : Nat} {a : α} (h : l[i]? = some a) (f : α → α) :
    l.modify i f = l.set i (f a) := by
  rw [List.modify_eq_set_getElem?, h]
  rfl

/-- The axle entries after the results are written, the entry of the current axle as it stands after them (R89). -/
theorem writeResults_axles {w : Option Written} (hv : s.vehicle = some v)
    (he : v.axles[s.engine.axle - 1]? = some e) : ((writeResults x k w s).vehicle.map fun u => u.axles) =
      some (v.axles.set (s.engine.axle - 1) (w.elim e (writeEntry · e))) := by
  have told (t : State) : (stepEndNotice k x.ending x.outcome (flushBatches (watchesOff (resetEval t)))).vehicle =
      t.vehicle := by
    rw [((flushBatches_speaks _).trans (stepEndNotice_speaks _ _ _ _)).only]
    rfl
  unfold writeResults
  cases w with
  | none =>
    dsimp only
    rw [told, hv]
    obtain ⟨inside, rfl⟩ := List.getElem?_eq_some_iff.mp he
    exact congrArg some (List.set_getElem_self inside).symm
  | some r =>
    dsimp only
    rw [(axleResultNotice_speaks _ _ _ _).only]
    dsimp only
    rw [told, State.setAxle, hv]
    exact congrArg some (modify_eq_set he _)

theorem concludeStep_axles (hv : s.vehicle = some v) (he : v.axles[s.engine.axle - 1]? = some e) :
    ((concludeStep x k s).vehicle.map fun u => u.axles) = some (v.axles.set (s.engine.axle - 1)
      (if x.outcome = .rep then e
       else writtenEntry (x.ending == .completed) (beforeEnd x k s) e)) := by
  have entry : (v.after x.outcome).axles[(beforeEnd x k s).engine.axle - 1]? = some e := by
    rw [VehicleRecord.after_axles, beforeEnd_engine, he]
  refine (writeResults_axles (beforeEnd_vehicle hv) entry).trans ?_
  rw [VehicleRecord.after_axles, beforeEnd_engine]
  by_cases rep : x.outcome = .rep
  · rw [if_pos (beq_iff_eq.mpr rep), if_pos rep]
    rfl
  · rw [if_neg (mt beq_iff_eq.mp rep), if_neg rep, writtenEntry]

end

end Sys2Proof.Machine
end

section
/-! The Brake Evaluator at a close and at the end of its step: the statement of O49. -/

namespace Sys2Proof
open Machine

/-- Settles O49: the loads, the sides and the imbalance of a close, and the entry that a step's end writes. -/
theorem measurementAtClose : Obligations.MeasurementAtClose := by
  unfold Obligations.MeasurementAtClose
  refine ⟨fun s count => ⟨settleClose_absent, fun l r hl hr => ?_⟩, fun tr s => ?_, fun x k v e s hk hv _ he => ?_⟩
  · intro n wl wr
    have left : slide n s.eval.loads.left (l, deliveredStale s .wheelLoadL) = wl := slide_eq _ _ _
    have right : slide n s.eval.loads.right (r, deliveredStale s .wheelLoadR) = wr := slide_eq _ _ _
    rw [settleClose_present hl hr, left, right]
    refine ⟨rfl, ?_⟩
    rw [Bool.and_eq_true, steady_iff count, steady_iff count, List.forall_mem_cons, List.forall_mem_singleton]
    exact and_and_and_comm.trans and_assoc
  · intro t
    have eval := measureClose_eval tr s
    have side (sd : Side) : t.eval.sides.get sd = evalSide sd (tr.get sd) s := measureClose_side tr s sd
    refine ⟨?_, ?_, fun sd => ?_, ?_⟩
    · obtain ⟨ev, ro, e, -⟩ := measureClose_only tr s
      simp only [t, e]
    · simp only [t, eval]
    · intro lim x y f stale
      have marked : staleMarked sd s = { x with stale } := by
        simp only [staleMarked, sideStale, stale, Bool.or_assoc, x]
      have judged : y = evalSide sd (tr.get sd) s := side sd
      refine ⟨?_, fun h => judged.trans (evalSide_inactive h), fun ha hx => ?_, fun ha hx => ?_⟩
      · rw [judged]
        exact measureClose_roller tr s sd
      · intro engaged higher peaked count
        have forced := judged.trans (evalSide_force ha hx)
        rw [marked] at forced
        have followed : follow (runningKind s .service) f (value s .pedalForce) { x with stale, phase := .engaged } =
            peaked := follow_eq Iff.rfl
        have counted : releaseCount lim f peaked = count := releaseCount_eq Iff.rfl
        have run (on : engaged) :
            y = if (tr.get sd).lock = true then peaked.endAs .locked else release lim f peaked := by
          refine (forced.trans (forceSide_engaged hx on)).trans ?_
          rw [followed]
        have free (on : engaged) (h : (tr.get sd).lock = false) : y = release lim f peaked := by
          rw [run on, h]
          rfl
        refine ⟨fun waits => forced.trans (forceSide_waits waits), fun on locks => (run on).trans (if_pos locks),
          fun on h ends => ?_, fun on h below => ?_⟩
        · rw [free on h, release_ends (counted ▸ ends), counted]
        · rw [free on h, release_counts (counted ▸ below), counted]
      · intro seen
        have held := judged.trans (evalSide_hold ha hx)
        rw [marked] at held
        have widened : widen f x.extremes = seen := by
          cases hf : f <;> cases he : x.extremes <;> simp only [seen, hf, he] <;> rfl
        refine ⟨fun locks => held.trans (holdSide_locked locks), fun free none => ?_, fun k free ends below => ?_⟩
        · rw [held, holdSide_open free none]
          exact congrArg (fun e => { x with stale, extremes := e }) widened
        · rw [held]
          refine ⟨fun skips => holdSide_skipped free ends below (widened.symm ▸ skips), fun hi lo late found high => ?_⟩
          intro new judged
          have worst : maxOpt x.ovality (some new) = judged.ovality := by
            rw [maxOpt_some]
            cases ho : x.ovality <;> simp only [judged, ho, Option.elim]
          refine (holdSide_judged (x := { x with stale }) free ends below late (widened.trans found) high).trans ?_
          dsimp only
          rw [worst]
          rfl
    · intro running shown paired
      have imbalance : t.eval.imbalance = imbalanceClose tr s := by simp only [t, eval]
      have both : paired ↔ pairedSide s.eval.sides.left (evalSide .left tr.left s) = true ∧
          pairedSide s.eval.sides.right (evalSide .right tr.right s) = true := by
        have left : evalSide .left tr.left s = t.eval.sides.left := (side .left).symm
        have right : evalSide .right tr.right s = t.eval.sides.right := (side .right).symm
        rw [pairedSide_iff, pairedSide_iff, left, right]
        exact and_assoc.symm.trans and_and_and_comm
      rw [imbalance]
      refine ⟨fun f g hs hp hf hg high => ?_, fun out => imbalanceClose_kept fun f g hs hl hr hf hg => ?_⟩
      · obtain ⟨hl, hr⟩ := both.mp hp
        rw [imbalanceClose_paired hs hl hr hf hg, candidate_counts high, maxOpt_some]
        cases s.eval.imbalance <;> rfl
      · rcases out with out | out | out | out | ⟨f', g', hf', hg', low⟩
        · exact nomatch hs.symm.trans out
        · exact absurd (both.mpr ⟨hl, hr⟩) out
        · exact nomatch hf.symm.trans out
        · exact nomatch hg.symm.trans out
        · cases hf.symm.trans hf'
          cases hg.symm.trans hg'
          exact candidate_low low
  · intro t ended ran load service park hold
    have mean (w : List (Int × Bool)) : meanLoad w = load w := by rw [meanLoad, clampTo_eq (by decide)]
    have kind : currentKind (beforeEnd x k s) = some k := beforeEnd_kind.trans hk
    refine ⟨congrArg State.eval (concludeStep_concluded x k s).only, (concludeStep_axles hv he).trans ?_⟩
    refine congrArg (fun y => some (v.axles.set (s.engine.axle - 1) y)) (if_congr Iff.rfl rfl ?_)
    cases k with
    | weigh =>
      rw [writtenEntry_weigh kind, beforeEnd_eval, mean, mean]
      exact if_congr beq_iff_eq rfl rfl
    | service =>
      rw [writtenEntry_service kind, sideResults_beforeEnd, beforeEnd_engine, beforeEnd_eval]
      rfl
    | park =>
      rw [writtenEntry_park kind, sideResults_beforeEnd]
      rfl
    | hold =>
      rw [writtenEntry_hold kind, sideResults_beforeEnd, beforeEnd_limits hv]
      rfl
    | axleIn => exact writtenEntry_other kind (.inl rfl)
    | axleOut => exact writtenEntry_other kind (.inr (.inl rfl))
    | spin => exact writtenEntry_other kind (.inr (.inr (.inl rfl)))
    | stop => exact writtenEntry_other kind (.inr (.inr (.inr (.inl rfl))))
    | finish => exact writtenEntry_other kind (.inr (.inr (.inr (.inr rfl))))

end Sys2Proof
end

section
/-! The service and park ratios (R141, R142). -/

namespace Sys2Proof.Machine

/-! ### Sums with absent parts -/

theorem sumAll_cons_none (l : List (Option Int)) : sumAll (none :: l) = none := rfl

theorem sumAll_cons_some (x : Int) (l : List (Option Int)) : sumAll (some x :: l) = (sumAll l).map (x + ·) := rfl

theorem sumAll_of_none_mem {l : List (Option Int)} (h : none ∈ l) : sumAll l = none := by
  induction l with
  | nil => exact absurd h List.not_mem_nil
  | cons x l ih =>
    cases x with
    | none => exact sumAll_cons_none l
    | some x =>
      have rest : none ∈ l := (List.mem_cons.mp h).resolve_left nofun
      rw [sumAll_cons_some, ih rest, Option.map_none]

theorem sumAll_map_some (l : List Int) : sumAll (l.map some) = some l.sum := by
  induction l with
  | nil => rfl
  | cons x l ih => rw [List.map_cons, sumAll_cons_some, ih, Option.map_some, List.sum_cons]

section
variable {l : List AxleEntry} {peak : AxleEntry → Side → Option Int}

/-- The peaks of axles that all hold both of theirs. -/
theorem sumAll_sides {peaks : List (Int × Int)}
    (h : l.map (fun e => (peak e .left, peak e .right)) = peaks.map fun p => (some p.1, some p.2)) :
    sumAll (l.flatMap fun e => [peak e .left, peak e .right]) = some (peaks.map fun p => p.1 + p.2).sum := by
  have parts : (l.flatMap fun e => [peak e .left, peak e .right]) = (peaks.flatMap fun p => [p.1, p.2]).map some := by
    calc (l.flatMap fun e => [peak e .left, peak e .right])
        = (l.map fun e => (peak e .left, peak e .right)).flatMap fun q => [q.1, q.2] := by rw [List.flatMap_map]
      _ = (peaks.flatMap fun p => [p.1, p.2]).map some := by
        rw [h, List.flatMap_map, List.map_flatMap]
        rfl
  have total : (peaks.flatMap fun p => [p.1, p.2]).sum = (peaks.map fun p => p.1 + p.2).sum := by
    rw [List.flatMap_def, List.sum_flatten, List.map_map]
    exact congrArg List.sum (List.map_congr_left fun p _ => List.sum_pair)
  rw [parts, sumAll_map_some, total]

theorem sumAll_sides_none {e : AxleEntry} (he : e ∈ l) (h : peak e .left = none ∨ peak e .right = none) :
    sumAll (l.flatMap fun e => [peak e .left, peak e .right]) = none := by
  refine sumAll_of_none_mem (List.mem_flatMap.mpr ⟨e, he, ?_⟩)
  rcases h with h | h
  · rw [h]
    exact List.mem_cons_self
  · rw [h]
    exact List.mem_cons_of_mem _ List.mem_cons_self

end

/-! ### The loads (R141) -/

section
variable {v : VehicleRecord}

theorem loadSum_present {loads : List (Int × Int)}
    (h : v.axles.map (fun e => e.loads.map fun w => (w.left.value, w.right.value)) = loads.map some) :
    loadSum v = some (loads.map fun p => p.1 + p.2).sum := by
  have parts : (v.axles.map fun e => e.loads.map fun p => p.left.value + p.right.value) =
      (loads.map fun p => p.1 + p.2).map some := by
    calc (v.axles.map fun e => e.loads.map fun p => p.left.value + p.right.value)
        = (v.axles.map fun e => e.loads.map fun w => (w.left.value, w.right.value)).map
            (Option.map fun p => p.1 + p.2) := by
          simp only [List.map_map, Function.comp_def, Option.map_map]
      _ = (loads.map fun p => p.1 + p.2).map some := by
          simp only [h, List.map_map, Function.comp_def, Option.map_some]
  rw [loadSum, parts, sumAll_map_some]

theorem loadSum_absent {e : AxleEntry} (he : e ∈ v.axles) (h : e.loads = none) : loadSum v = none := by
  refine sumAll_of_none_mem (List.mem_map.mpr ⟨e, he, ?_⟩)
  rw [h, Option.map_none]

/-! ### The ratios -/

theorem ratio_present (f w : Int) :
    ratio (some f) (some w) = if w = 0 then none else some (min ((f * 1000).tdiv w) 9999) := rfl

theorem ratio_no_peaks (w : Option Int) : ratio none w = none := rfl

theorem ratio_no_loads (f : Option Int) : ratio f none = none := by
  cases f <;> rfl

theorem parkRatio_no_axles (h : v.park = []) : parkRatio v = none := by
  rw [parkRatio, h]
  rfl

theorem parkRatio_axles (h : v.park ≠ []) : parkRatio v =
    ratio (sumAll ((parkAxles v).flatMap fun e => [parkPeak e.park .left, parkPeak e.park .right])) (loadSum v) :=
  if_neg (mt List.isEmpty_iff.mp h)

end

end Sys2Proof.Machine

namespace Sys2Proof
open Machine

/-- Settles O51: both ratios from the sums of their parts, and their absence with a part. -/
theorem ratiosFromTheRecord : Obligations.RatiosFromTheRecord := by
  unfold Obligations.RatiosFromTheRecord
  refine fun v => ⟨fun peaks loads hp hw => ?_, fun peaks loads axles hp hw => ?_, ?_, ?_⟩
  · rw [serviceRatio, sumAll_sides (peak := fun e => servicePeak e.service) hp, loadSum_present hw, ratio_present]
  · rw [parkRatio_axles axles, parkAxles, sumAll_sides (peak := fun e => parkPeak e.park) hp, loadSum_present hw,
      ratio_present]
  · rintro ⟨e, he, loads | peaks⟩
    · rw [serviceRatio, loadSum_absent he loads, ratio_no_loads]
    · rw [serviceRatio, sumAll_sides_none (peak := fun e => servicePeak e.service) he peaks, ratio_no_peaks]
  · rcases eq_or_ne v.park [] with empty | axles
    · exact fun _ => parkRatio_no_axles empty
    rw [parkRatio_axles axles]
    rintro (empty | ⟨e, he, loads⟩ | ⟨a, ha, e, he, peaks⟩)
    · exact absurd empty axles
    · rw [loadSum_absent he loads, ratio_no_loads]
    · have park : e ∈ parkAxles v := List.mem_filterMap.mpr ⟨a, ha, he⟩
      rw [sumAll_sides_none (peak := fun e => parkPeak e.park) park peaks, ratio_no_peaks]

end Sys2Proof
end

section
/-! The verdicts of the items and the overall verdict (R140, R143 to R145). -/

namespace Sys2Proof.Machine

/-! ### The overall verdict (R145) -/

section
variable {l : List Verdict} {aborted : Bool}

theorem overallOf_fail (h : Verdict.fail ∈ l) : overallOf l aborted = .fail :=
  if_pos (List.contains_iff_mem.mpr h)

theorem overallOf_incomplete (h : Verdict.fail ∉ l) (unfinished : Verdict.notEvaluated ∈ l ∨ aborted = true) :
    overallOf l aborted = .incomplete := by
  have marked : (l.contains Verdict.notEvaluated || aborted) = true := by
    rwa [Bool.or_eq_true, List.contains_iff_mem]
  rw [overallOf, if_neg (mt List.contains_iff_mem.mp h), if_pos marked]

theorem overallOf_pass (h : Verdict.fail ∉ l) (evaluated : Verdict.notEvaluated ∉ l) (whole : aborted = false) :
    overallOf l aborted = .pass := by
  have unmarked : ¬ (l.contains Verdict.notEvaluated || aborted) = true := by
    rw [Bool.or_eq_true, List.contains_iff_mem, whole]
    exact not_or.mpr ⟨evaluated, Bool.false_ne_true⟩
  rw [overallOf, if_neg (mt List.contains_iff_mem.mp h), if_neg unmarked]

theorem overallOf_aborted (h : aborted = true) : overallOf l aborted ≠ .pass := by
  by_cases failed : Verdict.fail ∈ l
  · rw [overallOf_fail failed]
    exact Overall.noConfusion
  · rw [overallOf_incomplete failed (.inr h)]
    exact Overall.noConfusion

end

/-! ### The verdict of an item (R143, R144) -/

/-- The verdict of an item that may apply, judged by its value (R144). -/
def Judged (applies : Prop) (x : Option Int) (good : Int → Prop) (y : Verdict) : Prop :=
  (¬ applies → y = .notApplicable) ∧ (applies → x = none → y = .notEvaluated) ∧
  ∀ z, applies → x = some z → (good z → y = .pass) ∧ (¬ good z → y = .fail)

section
variable {applicable : Bool} {applies : Prop} {x : Option Int}

theorem verdict_not_applicable (x : Option Int) (pass : Int → Bool) : verdict false x pass = .notApplicable := rfl

theorem verdict_absent (pass : Int → Bool) : verdict true none pass = .notEvaluated := rfl

theorem verdict_present (z : Int) (pass : Int → Bool) :
    verdict true (some z) pass = if pass z = true then .pass else .fail := rfl

variable {pass : Int → Bool} {good : Int → Prop}

theorem verdict_judged (ha : applicable = true ↔ applies) (hg : ∀ z, pass z = true ↔ good z) :
    Judged applies x good (verdict applicable x pass) := by
  refine ⟨fun h => ?_, fun h absent => ?_, fun z h present => ?_⟩
  · rw [Bool.eq_false_iff.mpr (mt ha.mp h), verdict_not_applicable]
  · rw [ha.mpr h, absent, verdict_absent]
  · rw [ha.mpr h, present, verdict_present]
    exact ⟨fun h => if_pos ((hg z).mpr h), fun h => if_neg (mt (hg z).mp h)⟩

/-- A ratio is judged by the value that the results show. -/
theorem verdict_shown_judged (ha : applicable = true ↔ applies) (hg : ∀ z, pass z = true ↔ good z) :
    Judged applies x good (verdict applicable (if applicable = true then x else none) pass) := by
  have shown : verdict applicable (if applicable = true then x else none) pass = verdict applicable x pass := by
    cases applicable <;> rfl
  rw [shown]
  exact verdict_judged ha hg

/-- A value is shown exactly when its item applies (R143). -/
theorem shown_iff_applies {α : Type} {y n : α} (ha : applicable = true ↔ applies) :
    (applies → (if applicable = true then y else n) = y) ∧ (¬ applies → (if applicable = true then y else n) = n) :=
  ⟨fun h => if_pos (ha.mpr h), fun h => if_neg (mt ha.mp h)⟩

end

/-! ### The items of the vehicle (R143, R144) -/

section
variable {lim : ClassLimits} {sec : List PlanStep} {plate : Bool} {v : VehicleRecord}

theorem any_kind_iff {k : StepKind} : (sec.any fun p => p.kind == k) = true ↔ ∃ p ∈ sec, p.kind = k := by
  simp only [List.any_eq_true, beq_iff_eq]

theorem any_parkStep_iff : (!v.park.isEmpty && sec.any fun p => p.kind == .park) = true ↔
    v.park ≠ [] ∧ ∃ p ∈ sec, p.kind = .park := by
  rw [Bool.and_eq_true, any_kind_iff, Bool.not_eq_true', ← Bool.not_eq_true, List.isEmpty_iff]

/-- A side that ended LOCKED. -/
theorem locked_iff {x : Option ServiceSide} :
    x.any (·.ending == .locked) = true ↔ ∃ y, x = some y ∧ y.ending = .locked := by
  simp only [Option.any_eq_true, beq_iff_eq]

theorem lockCredit_iff : lockCredit v = true ↔ (serviceRatio v).isSome = true ∧
    ∀ e ∈ v.axles, ∀ sd, ∃ y, e.service.get sd = some y ∧ y.ending = .locked := by
  have sides (e : AxleEntry) : (e.service.left.any (·.ending == .locked) && e.service.right.any (·.ending == .locked))
      = true ↔ ∀ sd, ∃ y, e.service.get sd = some y ∧ y.ending = .locked := by
    rw [Bool.and_eq_true, locked_iff, locked_iff]
    exact ⟨fun ⟨left, right⟩ sd => match sd with | .left => left | .right => right, fun h => ⟨h .left, h .right⟩⟩
  rw [lockCredit, Bool.and_eq_true, List.all_eq_true]
  exact and_congr_right fun _ => forall₂_congr fun e _ => sides e

theorem evaluate_lockCredit : (evaluate lim sec plate v).lockCredit = true ↔ (∃ p ∈ sec, p.kind = .service) ∧
    (serviceRatio v).isSome = true ∧ ∀ e ∈ v.axles, ∀ sd, ∃ y, e.service.get sd = some y ∧ y.ending = .locked := by
  show (lockCredit v && sec.any fun p => p.kind == .service) = true ↔ _
  rw [Bool.and_comm, Bool.and_eq_true, any_kind_iff, lockCredit_iff]

variable (lim sec plate v)

theorem evaluate_service :
    ((∃ p ∈ sec, p.kind = .service) → (evaluate lim sec plate v).service = serviceRatio v) ∧
    (¬ (∃ p ∈ sec, p.kind = .service) → (evaluate lim sec plate v).service = none) ∧
    Judged (∃ p ∈ sec, p.kind = .service) (serviceRatio v)
      (fun z => lim.serviceMin ≤ z ∨ (evaluate lim sec plate v).lockCredit = true)
      (evaluate lim sec plate v).serviceVerdict := by
  refine and_assoc.mp ⟨shown_iff_applies any_kind_iff, verdict_shown_judged any_kind_iff fun z => ?_⟩
  rw [Bool.or_eq_true, decide_eq_true_iff]
  rfl

theorem evaluate_park :
    ((v.park ≠ [] ∧ ∃ p ∈ sec, p.kind = .park) → (evaluate lim sec plate v).park = parkRatio v) ∧
    (¬ (v.park ≠ [] ∧ ∃ p ∈ sec, p.kind = .park) → (evaluate lim sec plate v).park = none) ∧
    Judged (v.park ≠ [] ∧ ∃ p ∈ sec, p.kind = .park) (parkRatio v) (fun z => lim.parkMin ≤ z)
      (evaluate lim sec plate v).parkVerdict :=
  and_assoc.mp ⟨shown_iff_applies any_parkStep_iff, verdict_shown_judged any_parkStep_iff fun _ => decide_eq_true_iff⟩

theorem evaluate_axles : (evaluate lim sec plate v).axles =
    v.axles.mapIdx fun i e => axleResults lim sec plate v (i + 1) e := rfl

/-! ### The items of an axle (R143, R144) -/

/-- The pass for an axle holds a runnable step of a kind (R143). -/
def PassHolds (sec : List PlanStep) (park : List Nat) (axle : Nat) (k : StepKind) : Prop :=
  ∃ p ∈ sec, p.kind = k ∧ (p.parkOnly = false ∨ axle ∈ park)

theorem passHolds_iff {sec : List PlanStep} {v : VehicleRecord} {axle : Nat} {k : StepKind} :
    (sec.any fun p => p.kind == k && runnable v.park axle p) = true ↔ PassHolds sec v.park axle k := by
  simp only [List.any_eq_true, Bool.and_eq_true, beq_iff_eq, runnable_iff, PassHolds]

variable (axle : Nat) (e : AxleEntry)

theorem axleResults_imbalance :
    (PassHolds sec v.park axle .service → (axleResults lim sec plate v axle e).imbalance = e.imbalance) ∧
    (¬ PassHolds sec v.park axle .service → (axleResults lim sec plate v axle e).imbalance = none) ∧
    Judged (PassHolds sec v.park axle .service) e.imbalance (fun z => z ≤ lim.imbalanceMax)
      (axleResults lim sec plate v axle e).imbalanceVerdict :=
  and_assoc.mp ⟨shown_iff_applies passHolds_iff, verdict_judged passHolds_iff fun _ => decide_eq_true_iff⟩

theorem axleResults_ovality (sd : Side) :
    let oval := (e.hold.get sd).bind (·.ovality)
    (PassHolds sec v.park axle .hold → (axleResults lim sec plate v axle e).ovality.get sd = oval) ∧
    (¬ PassHolds sec v.park axle .hold → (axleResults lim sec plate v axle e).ovality.get sd = none) ∧
    Judged (PassHolds sec v.park axle .hold) oval (fun z => z ≤ lim.ovalityMax)
      ((axleResults lim sec plate v axle e).ovalityVerdict.get sd) := by
  have value (b : Bool) (x y : Option Int) :
      (if b = true then Pair.mk x y else ⟨none, none⟩).get sd = if b = true then (Pair.mk x y).get sd else none := by
    cases b <;> cases sd <;> rfl
  refine and_assoc.mp ⟨?_, ?_⟩
  · rw [axleResults, value]
    cases sd <;> exact shown_iff_applies passHolds_iff
  · cases sd <;> exact verdict_judged passHolds_iff fun _ => decide_eq_true_iff

theorem axleResults_sideSlip :
    (plate = true → (axleResults lim sec plate v axle e).plate = e.plate) ∧
    (plate = false → (axleResults lim sec plate v axle e).plate = none) ∧
    Judged (plate = true) (e.plate.bind (·.value)) (fun z => -lim.sideSlipMax ≤ z ∧ z ≤ lim.sideSlipMax)
      (axleResults lim sec plate v axle e).sideSlipVerdict := by
  refine ⟨fun h => if_pos h, fun h => if_neg (Bool.eq_false_iff.mp h), verdict_judged Iff.rfl fun z => ?_⟩
  rw [decide_eq_true_iff]
  omega

end

end Sys2Proof.Machine

namespace Sys2Proof
open Machine

/-- Settles O50: the overall verdict, the verdicts of the items, and the evaluation at FINISH. -/
theorem overallVerdictDecided : Obligations.OverallVerdictDecided := by
  unfold Obligations.OverallVerdictDecided
  refine ⟨fun lim sec plate v => ?_, fun lim sec plate v => ?_, fun v plan s hv hplan => ?_⟩
  · exact ⟨overallOf_fail, overallOf_pass, overallOf_incomplete, overallOf_aborted⟩
  · obtain ⟨service, noService, serviceJudged⟩ := evaluate_service lim sec plate v
    obtain ⟨park, noPark, parkJudged⟩ := evaluate_park lim sec plate v
    refine ⟨evaluate_lockCredit, service, noService, serviceJudged, park, noPark, parkJudged, ?_, fun i e a he ha => ?_⟩
    · rw [evaluate_axles, List.length_mapIdx]
    · have results : a = axleResults lim sec plate v (i + 1) e := by
        rw [evaluate_axles, List.getElem?_mapIdx, he] at ha
        exact (Option.some.inj ha).symm
      rw [results]
      obtain ⟨imbalance, noImbalance, imbalanceJudged⟩ := axleResults_imbalance lim sec plate v (i + 1) e
      exact ⟨imbalance, noImbalance, imbalanceJudged, axleResults_ovality lim sec plate v (i + 1) e,
        axleResults_sideSlip lim sec plate v (i + 1) e⟩
  · obtain ⟨y, n, evaluated⟩ := evaluateVehicle_only hv
    rw [hplan] at evaluated
    rw [evaluated]
    exact ⟨rfl, rfl⟩

end Sys2Proof
end

section
/-! The outcome of a crossing's figures, and the figures of the open crossing (R151, R152). -/

namespace Sys2Proof.Machine

/-! ### The table of outcomes (R152) -/

section
variable {x : LaneSettings} {reversed : Bool} {d s : Option Int} {t : Nat}

/-- The vehicle left the plate backwards: R152's first row. -/
def LeftBackwards (reversed : Bool) (s : Option Int) : Prop := reversed = true ∨ ∃ z, s = some z ∧ z ≤ 0

theorem leftBackwards_iff : (reversed || s.any fun z => decide (z ≤ 0)) = true ↔ LeftBackwards reversed s := by
  simp only [Bool.or_eq_true, Option.any_eq_true, decide_eq_true_iff, LeftBackwards]

theorem judgeCrossing_figures :
    (judgeCrossing x reversed d s t).d = d ∧ (judgeCrossing x reversed d s t).s = s ∧
      (judgeCrossing x reversed d s t).t = t := by
  unfold judgeCrossing
  dsimp only
  split
  · exact ⟨rfl, rfl, rfl⟩
  · split
    · split
      · exact ⟨rfl, rfl, rfl⟩
      · split
        · exact ⟨rfl, rfl, rfl⟩
        · exact ⟨rfl, rfl, rfl⟩
    · exact ⟨rfl, rfl, rfl⟩

theorem judgeCrossing_reverse (h : LeftBackwards reversed s) : judgeCrossing x reversed d s t =
    { d, s, t, v := none, outcome := .reverse, value := none, clamped := false } :=
  if_pos (leftBackwards_iff.mpr h)

theorem judgeCrossing_invalidData (h : ¬ LeftBackwards reversed s) (absent : d = none ∨ s = none) :
    judgeCrossing x reversed d s t =
      { d, s, t, v := none, outcome := .invalidData, value := none, clamped := false } := by
  refine (if_neg (mt leftBackwards_iff.mp h)).trans ?_
  rcases absent with rfl | rfl
  · rfl
  · cases d with
    | none => rfl
    | some _ => rfl

variable {a b : Int}

theorem judgeCrossing_invalidShort (h : ¬ LeftBackwards reversed (some b)) (short : b < x.plateMinTravel) :
    judgeCrossing x reversed (some a) (some b) t =
      { d := some a, s := some b, t, v := none, outcome := .invalidShort, value := none, clamped := false } := by
  rw [judgeCrossing, if_neg (mt leftBackwards_iff.mp h)]
  exact if_pos short

theorem judgeCrossing_invalidSpeed (h : ¬ LeftBackwards reversed (some b)) (long : x.plateMinTravel ≤ b)
    (speed : crossingSpeed b t < x.speedLow ∨ x.speedHigh < crossingSpeed b t) :
    judgeCrossing x reversed (some a) (some b) t =
      { d := some a, s := some b, t, v := some (crossingSpeed b t), outcome := .invalidSpeed, value := none,
        clamped := false } := by
  rw [judgeCrossing, if_neg (mt leftBackwards_iff.mp h)]
  exact (if_neg (Int.not_lt.mpr long)).trans (if_pos speed)

theorem judgeCrossing_valid (h : ¬ LeftBackwards reversed (some b)) (long : x.plateMinTravel ≤ b)
    (low : x.speedLow ≤ crossingSpeed b t) (high : crossingSpeed b t ≤ x.speedHigh) :
    judgeCrossing x reversed (some a) (some b) t =
      { d := some a, s := some b, t, v := some (crossingSpeed b t), outcome := .valid,
        value := some (clampTo (-9999) 9999 ((a * 100).tdiv b)),
        clamped := clampTo (-9999) 9999 ((a * 100).tdiv b) != (a * 100).tdiv b } := by
  have speed : ¬ (crossingSpeed b t < x.speedLow ∨ x.speedHigh < crossingSpeed b t) := by omega
  rw [judgeCrossing, if_neg (mt leftBackwards_iff.mp h)]
  exact (if_neg (Int.not_lt.mpr long)).trans (if_neg speed)

end

theorem clampTo_moves_iff {lo hi : Int} (h : lo ≤ hi) (q : Int) : (clampTo lo hi q != q) = true ↔ q < lo ∨ hi < q := by
  rw [bne_iff_ne, clampTo_eq h]
  omega

/-! ### The figures of the open crossing (R151) -/

/-- How far the plate slid sideways between two occupied closes. -/
def lateralBetween (a b : PlatePoint) : Option Int := b.lateral.bind fun l => a.lateral.map fun k => l - k

theorem lateralBetween_none {a b : PlatePoint} (h : a.lateral = none ∨ b.lateral = none) : lateralBetween a b = none := by
  unfold lateralBetween
  rcases h with h | h
  · rw [h]
    cases b.lateral with
    | none => rfl
    | some _ => rfl
  · rw [h]
    rfl

theorem crossingOf_eq (x : LaneSettings) {u : PlateUnit} {a b : PlatePoint} (start : u.start = some a)
    (last : u.last = some b) : crossingOf x u =
      judgeCrossing x u.reversed (lateralBetween a b) b.travel (max 1 (b.time - a.time).toNat) := by
  have atLeastOne (n : Nat) : (if n = 0 then 1 else n) = max 1 n := by
    split
    · omega
    · omega
  simp only [crossingOf, start, last, atLeastOne]
  rfl

end Sys2Proof.Machine

namespace Sys2Proof
open Machine

/-- Settles O52: a row of R152's table for each outcome. -/
theorem crossingOutcome : Obligations.CrossingOutcome := by
  unfold Obligations.CrossingOutcome
  intro x reversed d s t _ _
  refine ⟨fun back => ?_, fun forward absent => ?_, fun a b forward hd hs => ?_⟩
  · rw [judgeCrossing_reverse back]
    exact ⟨rfl, rfl⟩
  · rw [judgeCrossing_invalidData forward absent]
    exact ⟨rfl, rfl⟩
  · subst hd hs
    refine ⟨fun short => ?_, fun long speed => ?_, fun long low high => ?_⟩
    · rw [judgeCrossing_invalidShort forward short]
      exact ⟨rfl, rfl⟩
    · rw [judgeCrossing_invalidSpeed forward long speed]
      exact ⟨rfl, rfl, rfl⟩
    · rw [judgeCrossing_valid forward long low high]
      exact ⟨rfl, rfl, congrArg some (clampTo_eq (by decide) _), clampTo_moves_iff (by decide) _⟩

end Sys2Proof
end

section
/-! The plate at a tick close of B: a crossing opens, goes on, closes and is filed (R149 to R155). -/

namespace Sys2Proof.Machine

/-! ### The plate by its detection (R149, R150) -/

section
variable {s : State}

theorem plateClose_off (h : s.plate.detection = .off) : plateClose s = (s, false) := by
  rw [plateClose, h]

theorem plateClose_waitClear (h : s.plate.detection = .waitClear) : plateClose s =
    (if delivers s .plateOccupied 0 then { s with plate := { s.plate with detection := .clear } } else s, false) := by
  rw [plateClose, h]

theorem plateClose_clear (h : s.plate.detection = .clear) : plateClose s =
    (if delivers s .plateOccupied 1 then
      { s with plate := { s.plate with
          detection := .opened, start := some (platePoint s), last := some (platePoint s), reversed := false,
          stale := plateStale s } }
    else s, false) := by
  rw [plateClose, h]
  dsimp only
  split
  · rfl
  · rfl

/-- The travel is less than at the last occupied close (R150). -/
def rolledBack (s : State) : Bool :=
  match value s .plateTravel, s.plate.last.bind (·.travel) with
  | some new, some old => decide (new < old)
  | _, _ => false

theorem rolledBack_iff : rolledBack s = true ↔
    ∃ new old, value s .plateTravel = some new ∧ s.plate.last.bind (·.travel) = some old ∧ new < old := by
  unfold rolledBack
  cases value s .plateTravel with
  | none => simp
  | some new =>
    cases s.plate.last.bind (·.travel) with
    | none => simp
    | some old => simp

theorem plateClose_occupied (h : s.plate.detection = .opened) (one : delivers s .plateOccupied 1 = true) :
    plateClose s = ({ s with plate := { s.plate with
      reversed := s.plate.reversed || rolledBack s, last := some (platePoint s),
      stale := s.plate.stale || plateStale s } }, false) := by
  rw [plateClose, h]
  exact if_pos one

theorem plateClose_neither (h : s.plate.detection = .opened) (notOne : delivers s .plateOccupied 1 = false)
    (notZero : delivers s .plateOccupied 0 = false) :
    plateClose s = ({ s with plate := { s.plate with stale := s.plate.stale || plateStale s } }, false) := by
  rw [plateClose, h]
  exact (if_neg (Bool.eq_false_iff.mp notOne)).trans (if_neg (Bool.eq_false_iff.mp notZero))

theorem plateClose_closing (h : s.plate.detection = .opened) (zero : delivers s .plateOccupied 0 = true)
    (notOne : delivers s .plateOccupied 1 = false) : plateClose s = closeCrossing s := by
  rw [plateClose, h]
  exact (if_neg (Bool.eq_false_iff.mp notOne)).trans (if_pos zero)

end

/-! ### The crossing's attribution (R153 to R155) -/

/-- A notice leaves the plate, the vehicle and the count of reverse crossings. -/
theorem notice_keeps_crossing (code : Byte) (fields : List Byte) (s : State) :
    (notice code fields s).plate = s.plate ∧ (notice code fields s).vehicle = s.vehicle ∧
      (notice code fields s).live.reverse = s.live.reverse := by
  obtain ⟨x, n, e, -⟩ := notice_only code fields s
  rw [e]
  exact ⟨rfl, rfl, rfl⟩

section
variable {number : Nat} {c : Crossing} {stale : Bool} {v : VehicleRecord} {s : State}

/-- The result an axle's entry takes from a crossing (R154). -/
def Crossing.result (c : Crossing) (stale : Bool) : PlateResult :=
  { outcome := c.outcome, value := c.value, clamped := c.clamped, stale }

theorem attributeCrossing_filed (room : s.plate.axleCount < v.n) (hv : s.vehicle = some v) :
    let r := attributeCrossing number c stale v s
    r.2 = true ∧ r.1.plate = { s.plate with axleCount := s.plate.axleCount + 1 } ∧
      r.1.live.reverse = s.live.reverse ∧ r.1.vehicle =
        some { v with axles := v.axles.modify s.plate.axleCount fun e => { e with plate := some (c.result stale) } } := by
  rw [attributeCrossing, if_pos room]
  obtain ⟨plate, vehicle, reverse⟩ := notice_keeps_crossing _ _ _
  refine ⟨rfl, plate, reverse, vehicle.trans ?_⟩
  rw [State.setAxle, hv]
  rfl

theorem attributeCrossing_extra (full : v.n ≤ s.plate.axleCount) :
    let r := attributeCrossing number c stale v s
    r.2 = false ∧ r.1.plate = s.plate ∧ r.1.vehicle = some { v with extra := min (v.extra + 1) 255 } ∧
      r.1.live.reverse = s.live.reverse := by
  rw [attributeCrossing, if_neg (Nat.not_lt.mpr full)]
  exact ⟨rfl, notice_keeps_crossing _ _ _⟩

end

/-! ### The close of a crossing (R151) -/

section
variable {s : State} {v : VehicleRecord}

/-- The plate once its crossing has closed: clear, and numbered up to 255 (log entry 51). -/
def PlateUnit.closed (u : PlateUnit) : PlateUnit :=
  { PlateUnit.reset with detection := .clear, axleCount := u.axleCount, crossing := min (u.crossing + 1) 255 }

theorem closeCrossing_reverse (h : (crossingOf (settings s) s.plate).outcome = .reverse) :
    (closeCrossing s).2 = false ∧ (closeCrossing s).1.plate = s.plate.closed ∧
      (closeCrossing s).1.vehicle = s.vehicle ∧ (closeCrossing s).1.live.reverse = s.live.reverse + 1 := by
  rw [closeCrossing]
  dsimp only
  rw [h]
  exact ⟨rfl, notice_keeps_crossing _ _ _⟩

theorem closeCrossing_consuming (h : (crossingOf (settings s) s.plate).outcome ≠ .reverse) (hv : s.vehicle = some v) :
    closeCrossing s = attributeCrossing (min (s.plate.crossing + 1) 255) (crossingOf (settings s) s.plate)
      (s.plate.stale || plateStale s) v { s with plate := s.plate.closed } := by
  rw [closeCrossing]
  dsimp only
  split
  next reverse => exact absurd reverse h
  next w here _ =>
    obtain rfl : v = w := Option.some.inj (hv.symm.trans here)
    rfl
  next absent _ => exact nomatch hv.symm.trans absent

end

end Sys2Proof.Machine

namespace Sys2Proof
open Machine

/-- Settles O53: the close by the plate's detection, the figures, and the attribution of a crossing that closes. -/
theorem crossingAttributed : Obligations.CrossingAttributed := by
  unfold Obligations.CrossingAttributed
  refine ⟨fun s => ?_, fun x u a b start last => ?_, fun v s opened zero notOne hv => ?_⟩
  · refine ⟨plateClose_off, plateClose_waitClear, plateClose_clear, fun opened one => ?_, plateClose_neither⟩
    refine ⟨s.plate.reversed || rolledBack s, ?_, plateClose_occupied opened one⟩
    rw [Bool.or_eq_true, rolledBack_iff]
  · rw [crossingOf_eq x start last]
    obtain ⟨lateral, travel, time⟩ := judgeCrossing_figures (x := x) (reversed := u.reversed)
      (d := lateralBetween a b) (s := b.travel) (t := max 1 (b.time - a.time).toNat)
    refine ⟨travel, time, fun k l hk hl => ?_, fun absent => lateral.trans (lateralBetween_none absent)⟩
    rw [lateral, lateralBetween, hk, hl]
    rfl
  · dsimp only
    refine ⟨fun reverse => ?_, fun consuming room => ?_, fun consuming full => ?_, plateClose_closes s⟩
    · rw [plateClose_closing opened zero notOne, ← hv]
      exact closeCrossing_reverse reverse
    · rw [plateClose_closing opened zero notOne, closeCrossing_consuming consuming hv]
      exact attributeCrossing_filed room hv
    · rw [plateClose_closing opened zero notOne, closeCrossing_consuming consuming hv]
      exact attributeCrossing_extra full

end Sys2Proof
end

section
/-! The assembly of a certificate and the pieces of its record (R163 to R167, R184). -/

namespace Sys2Proof.Machine

/-! ### The assembly (R164 to R166) -/

section
variable {v : VehicleRecord} {r : VehicleResults} {number live hold : Word32}

/-- The check value is no part of the contents it is computed over (R165). -/
theorem certBody_setCheck (c : Certificate) (x : Word32) : certBody { c with check := x } = certBody c := rfl

/-- The check value of an assembled certificate is the CRC-32 of its own contents (R165). -/
theorem assemble_check :
    (assemble number v r live hold).check = crc32 (certBody (assemble number v r live hold)) := by
  rw [assemble, certBody_setCheck]

/-- An assembled certificate, field by field (R164). -/
theorem assemble_fields : let c := assemble number v r live hold
    c = { number, ident := v.ident, dateTime := v.dateTime, cls := v.cls, n := v.n, lines := c.lines
          service := r.service, serviceVerdict := r.serviceVerdict, lockCredit := r.lockCredit, park := r.park
          parkVerdict := r.parkVerdict, overall := r.overall, aborted := v.aborted, repeats := v.repeats
          extra := v.extra, live, hold, generation := v.generation, check := crc32 (certBody c) } := by
  intro c
  rw [← show c.check = crc32 (certBody c) from assemble_check]
  rfl

theorem assemble_lines_length (h : v.axles.length = r.axles.length) :
    (assemble number v r live hold).lines.length = v.axles.length := by
  show ((v.axles.zip r.axles).mapIdx _).length = _
  rw [List.length_mapIdx, List.length_zip, ← h, Nat.min_self]

/-- The line of an axle comes from its entry and its results, at the same place (R164). -/
theorem assemble_line {i : Nat} {e : AxleEntry} {a : AxleResults} (he : v.axles[i]? = some e)
    (ha : r.axles[i]? = some a) : (assemble number v r live hold).lines[i]? = some (axleLine v (i + 1) e a) := by
  show ((v.axles.zip r.axles).mapIdx _)[i]? = _
  rw [List.getElem?_mapIdx, List.getElem?_zip_eq_some (z := (e, a)).mpr ⟨he, ha⟩, Option.map_some]

end

/-- A certificate that joins a queue with others before it is not sent, and leaves the oldest's delivery as it is
(R166, R167). -/
theorem queueCertificate_behind {v : VehicleRecord} {r : VehicleResults} {s t : State} (others : s.certs.queue ≠ [])
    (hl : s.certs.queue.length < 4) (hv : s.vehicle = some v) (hr : v.results = some r)
    (queued : queueCertificate s = some t) :
    t.station = s.station ∧ t.certs = { s.certs with number := t.certs.number, queue := t.certs.queue } := by
  have room : ¬ certCap ≤ s.certs.queue.length := Nat.not_le.mpr hl
  have waiting : s.certs.queue.isEmpty = false := List.isEmpty_eq_false_iff.mpr others
  simp only [queueCertificate, if_neg room, hv, hr, waiting, Option.bind_some, Option.map_some, Bool.false_eq_true,
    if_false] at queued
  cases queued
  exact ⟨rfl, rfl⟩

/-! ### The pieces of a record (R167) -/

/-- The pieces put together are the bytes that were cut, where they suffice for them. -/
theorem cut_flatten {k : Nat} {l : List Byte} (h : l.length ≤ 112 * k) : (cut k l).flatten = l := by
  induction k generalizing l with
  | zero => exact (List.length_eq_zero_iff.mp (Nat.le_zero.mp h)).symm
  | succ k ih =>
    unfold cut
    split
    next last => exact List.append_nil l
    next more =>
      have fewer : (l.drop 112).length ≤ 112 * k := by
        rw [List.length_drop]
        omega
      rw [List.flatten_cons, ih fewer, List.take_append_drop]

/-- No piece is longer than 112 bytes, and every piece but the last is full. -/
theorem cut_piece {k i : Nat} {l p : List Byte} (h : (cut k l)[i]? = some p) :
    p.length ≤ 112 ∧ (i + 1 < (cut k l).length → p.length = 112) := by
  induction k generalizing l i with
  | zero => exact nomatch h
  | succ k ih =>
    unfold cut at h ⊢
    split at h
    next last =>
      obtain rfl : p = l := List.mem_singleton.mp (List.mem_of_getElem? h)
      rw [if_pos last]
      exact ⟨last, fun before => absurd before (by simp)⟩
    next more =>
      rw [if_neg more, List.length_cons, Nat.add_lt_add_iff_right]
      cases i with
      | zero =>
        obtain rfl : l.take 112 = p := Option.some.inj h
        have full : (l.take 112).length = 112 := List.length_take_of_le (by omega)
        exact ⟨full.le, fun _ => full⟩
      | succ i => exact ih h

/-! ### The segments (R167, R184) -/

/-- The bytes of a segment before its piece: the certificate number, the segment's index and their count (R184). -/
def segmentHead (c : Certificate) (i : Nat) : List Byte :=
  word32 c.number ++ [BitVec.ofNat 8 (i + 1), BitVec.ofNat 8 (segments c).length]

theorem segmentHead_length (c : Certificate) (i : Nat) : (segmentHead c i).length = 6 := rfl

theorem segments_length_eq (c : Certificate) : (segments c).length = (pieces c).length := by
  rw [segments, List.length_mapIdx]

/-- Each segment carries the piece at its place behind its head, to the printer station (R167, R184). -/
theorem segments_getElem? (c : Certificate) (i : Nat) :
    (segments c)[i]? = ((pieces c)[i]?).map fun p => originate 61 kindCert (segmentHead c i ++ p) := by
  rw [segmentHead, segments_length_eq, segments, List.getElem?_mapIdx]
  simp only [be8, List.append_assoc, List.cons_append, List.nil_append]

theorem segments_carry_pieces (c : Certificate) : (segments c).map (fun f => f.payload.drop 6) = pieces c := by
  refine List.ext_getElem? fun i => ?_
  rw [List.getElem?_map, segments_getElem?, Option.map_map]
  refine (congrArg (fun g => Option.map g _) (funext fun p => ?_)).trans Option.map_id'
  exact List.drop_left' (segmentHead_length c i)

end Sys2Proof.Machine

namespace Sys2Proof
open Machine

/-- Settles O54: the certificate that FINISH queues, field by field, and its record rebuilt from its segments. -/
theorem segmentsRebuildTheRecord : Obligations.SegmentsRebuildTheRecord := by
  unfold Obligations.SegmentsRebuildTheRecord
  refine ⟨fun s => queueCertificate_full, fun v r s room hv hr same => ?_, fun c fits => ?_⟩
  · obtain ⟨t, queued, cert⟩ := queueCertificate_room room hv hr
    exact ⟨t, _, queued, cert.number, cert.queue, cert.count, assemble_fields, assemble_lines_length same,
      fun i e a => assemble_line, fun others => queueCertificate_behind others room hv hr queued, cert.only⟩
  · refine ⟨?_, segments_length c, fun i f hf => ?_⟩
    · rw [segments_carry_pieces]
      exact cut_flatten fits
    · rw [segments_getElem?] at hf
      obtain ⟨p, hp, rfl⟩ := Option.map_eq_some_iff.mp hf
      obtain ⟨short, full⟩ := cut_piece hp
      have payload : (segmentHead c i ++ p).length = 6 + p.length := List.length_append
      rw [segments_length_eq]
      refine ⟨rfl, rfl, rfl, ?_, ?_, fun more => ?_⟩
      · exact (List.take_left' (segmentHead_length c i)).trans (by rw [segmentHead, segments_length_eq])
      · exact payload.trans_le (Nat.add_le_add_left short 6)
      · exact payload.trans (congrArg (6 + ·) (full more))

end Sys2Proof
end

section
/-! Lane time's counts and the records of what happened: the live and hold time of an open vehicle (R173), the latch of
the counters (R175) and the read of the Sync Log (R180). -/

namespace Sys2Proof.Machine

/-! ### Live and hold time (R173) -/

/-- Settles O60: it is among what every step keeps. A vehicle is opened with both times at 0 (`openVehicle_kept`), each
lane millisecond counts exactly one of them (`millisecond_kept`), and every other update of an open vehicle's record
leaves its open lane time (`Along.toVehicle`). -/
theorem liveAndHoldTimesKept : Obligations.LiveAndHoldTimesKept := by
  unfold Obligations.LiveAndHoldTimesKept
  intro s t agree h
  exact (step_kept h).agree agree

/-! ### COUNTERS_LATCH (R175) -/

/-- A flag byte of a request reads back as its flag. -/
theorem boolOf_flag (b : Bool) : boolOf (if b then 1 else 0 : Byte).toNat = some b := by cases b <;> rfl

theorem exec_countersLatch {s : State} {f : Frame} {content : List Byte} (h : s.asks f (0x0B :: content)) :
    exec .countersLatch s = .next (takeCountersLatch f.src.toNat content (s.dropFirst .station)) :=
  congrArg Host.Outcome.next (onRequest_asks h takeCountersLatch)

theorem takeCountersLatch_formed (src : Nat) (clear : Bool) (s : State) :
    takeCountersLatch src [if clear then 1 else 0] s = latch clear src s := by
  have clearField : field [if clear then 1 else 0] 0 1 = (if clear then 1 else 0 : Byte).toNat := field_one _ 0
  rw [takeCountersLatch, if_neg (fun h => h rfl), clearField, boolOf_flag]

/-! ### LOG_READ (R180) -/

theorem exec_logRead {s : State} {f : Frame} {content : List Byte} (h : s.asks f (0x0D :: content)) :
    exec .logRead s = .next (takeLogRead f.src.toNat content (s.dropFirst .station)) :=
  congrArg Host.Outcome.next (onRequest_asks h takeLogRead)

/-- A LOG_READ of a good form, for 1 to 16 entries, is answered. -/
theorem takeLogRead_formed {src : Nat} {count : Byte} {remove : Bool} {s : State} (least : 1 ≤ count.toNat)
    (fits : count.toNat ≤ 16) :
    takeLogRead src [count, if remove then 1 else 0] s = logRead count.toNat remove src s := by
  have countField : field [count, if remove then 1 else 0] 0 1 = count.toNat := field_one _ 0
  have removeField : field [count, if remove then 1 else 0] 1 1 = (if remove then 1 else 0 : Byte).toNat :=
    field_one _ 1
  have range : inRange 1 count.toNat 16 = true := by simp [inRange, least, fits]
  rw [takeLogRead, if_neg (fun h => h rfl), removeField, boolOf_flag, countField]
  exact if_pos range

/-- An entry of the Sync Log in a reply: its lane time, and a byte each for what it says and for who asked (R180). -/
theorem logFields_eq (e : SyncEntry) : logFields e =
    word32 e.time ++ [BitVec.ofNat 8 (syncCode e.code), BitVec.ofNat 8 (sourceCode e.source)] :=
  List.append_assoc _ _ _

theorem logRead_eq (count : Nat) (remove : Bool) (src : Nat) (s : State) : logRead count remove src s =
    reply src 0x0D 0
      ((s.syncLog.entries.take count).flatMap (fun e => word32 e.time ++
          [BitVec.ofNat 8 (syncCode e.code), BitVec.ofNat 8 (sourceCode e.source)]) ++
        be16 s.syncLog.overflow ++ [BitVec.ofNat 8 s.syncLog.entries.length])
      (if remove then { s with syncLog := { entries := s.syncLog.entries.drop count, overflow := 0 } } else s) := by
  rw [← funext logFields_eq]
  rfl

/-- Settles O35: each request, taken from the FIFO, is its latch or its read. -/
theorem countersLatchedAndLogRead : Obligations.CountersLatchedAndLogRead := by
  unfold Obligations.CountersLatchedAndLogRead
  intro f again s u
  refine ⟨fun h => ?_, fun count h least fits => ?_⟩
  · rw [exec_countersLatch h, takeCountersLatch_formed]
    rfl
  · rw [exec_logRead h, takeLogRead_formed least fits, logRead_eq]
    rfl

end Sys2Proof.Machine
end

section
/-! The answers to requests that name no row of the command set and to requests of a wrong length (R181; log entry 7). -/

namespace Sys2Proof.Machine

/-! ### Unknown requests (R181) -/

/-- A payload with no code, or with one outside 1 to 15, is answered with its code, 0 where it has none (R181). -/
theorem exec_unknownRequest {s : State} {f : Frame} {payload : List Byte} (h : s.asks f payload)
    (unknown : ∀ b ∈ payload.head?, b = 0 ∨ 15 < b.toNat) :
    exec .unknownRequest s = .next (reply f.src.toNat (payload.headD 0) 7 [] (s.dropFirst .station)) := by
  show Host.Outcome.next _ = _
  rw [takeRequest_asks h]
  · exact congrArg (fun l => Host.Outcome.next (reply f.src.toNat (l.headD 0) 7 [] (s.dropFirst .station)))
      (asks_taken h).2
  · cases payload with
    | nil => rfl
    | cons b rest =>
      refine (Bool.not_eq_true' _).mpr ((Bool.not_eq_true _).mp fun inside => ?_)
      obtain ⟨least, most⟩ := inRange_iff.mp inside
      obtain rfl | above := unknown b rfl
      · exact absurd least (by decide)
      · exact absurd most (Nat.not_le.mpr above)

/-! ### Malformed requests (R181) -/

/-- A row answers every request of its code whose content has another length than the row's with MALFORMED, and
changes nothing else (R181). -/
def RejectsLength (row : Byte × Nat × Instr) : Prop :=
  ∀ (f : Frame) (s : State) (content : List Byte), s.asks f (row.1 :: content) → content.length ≠ row.2.1 →
    exec row.2.2 s = .next (malformed f.src.toNat row.1 (s.dropFirst .station))

/-- The row of a code's only request, whose handler judges the length first. -/
theorem onRequest_rejectsLength {code : Byte} {len : Nat} {i : Instr} {handle : Nat → List Byte → State → State}
    (row : ∀ s, exec i s = .next (onRequest code handle s))
    (judged : ∀ src l s, l.length ≠ len → handle src l s = malformed src code s) : RejectsLength (code, len, i) :=
  fun _ s _ asks wrong => (row s).trans (congrArg Host.Outcome.next ((onRequest_asks asks handle).trans
    (judged _ _ _ wrong)))

/-- A handler that takes no content judges it before anything else. -/
theorem onRequest_rejectsContent {code : Byte} {i : Instr} {handle : Nat → List Byte → State → State}
    (row : ∀ s, exec i s = .next (onRequest code handle s))
    (judged : ∀ src l s, l ≠ [] → handle src l s = malformed src code s) : RejectsLength (code, 0, i) :=
  onRequest_rejectsLength row fun src l s wrong => judged src l s (mt List.length_eq_zero_iff.mpr wrong)

/-- Content that is not one selector byte is owned by every row of its code (log entry 7). -/
theorem onSelected_asks_of_length {s : State} {f : Frame} {code : Byte} {content : List Byte}
    (h : s.asks f (code :: content)) (wrong : content.length ≠ 1) (selector : Byte) (named : Byte → Bool)
    (handle : Nat → List Byte → State → State) :
    onSelected code selector named handle s = handle f.src.toNat content (s.dropFirst .station) := by
  unfold onSelected
  rw [takeRequest_asks h]
  · exact congrArg (fun l => handle f.src.toNat (l.drop 1) (s.dropFirst .station)) (asks_taken h).2
  · match content with
    | [] => simp
    | [_] => exact absurd rfl wrong
    | _ :: _ :: _ => simp

/-- Any row of a code that has several takes its malformed requests (log entry 7). -/
theorem onSelected_rejectsLength {code selector wanted : Byte} {named : Byte → Bool} {i : Instr}
    {act : Nat → State → State}
    (row : ∀ s, exec i s = .next (onSelected code selector named (oneByte code wanted act) s)) :
    RejectsLength (code, 1, i) :=
  fun _ s _ asks wrong => (row s).trans (congrArg Host.Outcome.next
    ((onSelected_asks_of_length asks wrong selector named _).trans (if_pos wrong)))

theorem goInstr_rejectsLength (g : GoRequest) : RejectsLength (0x05, 1, goInstr g) := by
  cases g <;> exact onSelected_rejectsLength fun _ => rfl

theorem syncInstr_rejectsLength {code : SyncCode} {i : Instr} (h : syncInstr code = some i) :
    RejectsLength (0x0A, 1, i) := by
  cases code with
  | tare => exact nomatch h
  | zero | streamOn | streamOff | headRestart => cases h; exact onSelected_rejectsLength fun _ => rfl

/-- Settles O37: the unknown requests, then the malformed ones row by row, in the order of the codes. -/
theorem unknownAndMalformedAnswered : Obligations.UnknownAndMalformedAnswered := by
  unfold Obligations.UnknownAndMalformedAnswered
  intro f s
  refine ⟨fun h => exec_unknownRequest h nofun, fun b rest h unknown =>
    exec_unknownRequest h fun _ first => Option.some.inj first ▸ unknown, fun code len i content row => ?_⟩
  refine (?_ : ∀ row ∈ _, RejectsLength row) (code, len, i) row f s content
  simp only [List.forall_mem_cons, List.not_mem_nil, false_implies, implies_true, and_true]
  refine ⟨?tableRead, ?bankSwitchApply, ?bankSwitchCancel, ?bankStatus,
    goInstr_rejectsLength .idle, goInstr_rejectsLength .off, goInstr_rejectsLength .manual,
    goInstr_rejectsLength .entry, goInstr_rejectsLength .test, goInstr_rejectsLength .entryToTest,
    goInstr_rejectsLength .pause, goInstr_rejectsLength .resume,
    ?vehicleCancel, ?laneReset, ?cadenceSet,
    syncInstr_rejectsLength (code := .zero) rfl, syncInstr_rejectsLength (code := .streamOn) rfl,
    syncInstr_rejectsLength (code := .streamOff) rfl, syncInstr_rejectsLength (code := .headRestart) rfl,
    ?countersLatch, ?statusRead, ?logRead, ?certAck, ?certNumberSet⟩
  case bankSwitchApply | bankSwitchCancel => exact onSelected_rejectsLength fun _ => rfl
  case bankStatus | vehicleCancel | laneReset =>
    exact onRequest_rejectsContent (fun _ => rfl) fun _ _ _ wrong => if_pos wrong
  case tableRead | cadenceSet | countersLatch | statusRead | logRead | certAck | certNumberSet =>
    exact onRequest_rejectsLength (fun _ => rfl) fun _ _ _ wrong => if_pos wrong

end Sys2Proof.Machine
end

section
/-! The step takes the front of the queue (00_scope.md section 2.1; log entry 1). -/

namespace Sys2Proof.Machine

/-- The part idles on an empty queue (log entry 1). -/
theorem step_eq_next_self {s : State} (empty : s.pending = []) : step s = .next s := by
  unfold step
  rw [empty]

/-- The command that runs sees the queue without itself. -/
theorem step_eq_exec_front {s : State} {c : Instr} {rest : List Instr} (front : s.pending = c :: rest) :
    step s = exec c { s with pending := rest } := by
  unfold step
  rw [front]

/-- Settles O1: the step by the two shapes of the queue. -/
theorem stepRunsFrontCommand : Obligations.StepRunsFrontCommand := by
  unfold Obligations.StepRunsFrontCommand
  exact fun _ => ⟨fun _ _ front => step_eq_exec_front front, fun empty => step_eq_next_self empty⟩

end Sys2Proof.Machine
end
